-- ==== Sys2Proof/Word.lean ====
section
/-! DEFINITION. The words of the NH-2410 (00_scope.md, Numbers used throughout). -/

namespace Sys2Proof

/-- One byte: a byte lane of a memory word, or a byte on the management port. -/
abbrev Byte := BitVec 8

/-- One word of the host bus and of the attached memory. -/
abbrev Word := BitVec 16

/-- A word address, 0 to 1,048,575. -/
abbrev WordAddr := BitVec 20

/-- An epoch serial or a configuration generation: a two-word field of a stored record. -/
abbrev Serial := BitVec 32

end Sys2Proof
end

