-- ==== Sys2Proof/Config.lean ====
section
/-! DEFINITION. The fixed numbers of the part (00_scope.md, Numbers used throughout; chapter 12) and the values the
manual leaves free. -/

namespace Sys2Proof.Config

/-- Blocks 0 to 8 are the device area: the first block a region or a journal may use is 9 (R39, R84). -/
def firstFreeBlock : Nat := 9

/-- The last block of the address space. -/
def lastBlock : Nat := 65535

/-- Words in a block. -/
def blockWords : Nat := 16

/-- Words in a slot, which are the words of a journal record. -/
def slotWords : Nat := 22

/-- Words in an anchor. -/
def anchorWords : Nat := 8

/-- Words in a configuration copy. -/
def configWords : Nat := 64

/-- The largest slot count (R39). -/
def maxSlots : Nat := 4096

/-- Entries of the Logged-Block Set (R25). -/
def setCapacity : Nat := 64

/-- Entries of the write queue (R110). -/
def queueCapacity : Nat := 8

/-- The largest serial and the largest generation, 4,294,967,295 (R3, R55, R94). -/
def maxSerial : Serial := 4294967295

/-- The sum of the 22 words of a valid journal record (R41). -/
def recordSum : Word := 0x7A31

/-- The sum of the 8 words of a valid anchor (R48). -/
def anchorSum : Word := 0x3C5E

/-- The sum of the first 57 words of a valid configuration copy (R90). -/
def configSum : Word := 0x61B4

/-- The mark in word 0 of a configuration copy (R90). -/
def configMark : Word := 0x4E48

/-- FREE VALUE (R132, log 3): the word of a multi-word write at which the n-th torn write is cut. The manual fixes no
position; the model takes it modulo the number of words at which the write may be cut (log 28). -/
opaque tearPoint : Nat → Nat

/-- FREE VALUE (R132, log 3): the bits of the word in hand that the n-th torn write has already changed. A mask of zeros
is the old word, a mask of ones the new word, any other a mixture, as R132 allows. -/
opaque tearMask : Nat → Word

/-- FREE VALUE (R148, R160, log 29): whether the arbiter acts before a paused run has asked again, where the hold flag clears
and its grant depends on that; one value for each such clearing. -/
opaque arbiterFirst : Nat → Bool

end Sys2Proof.Config
end

