-- ==== Sys2Proof/Syntax.lean ====
section
/-! DEFINITION. The commands of the part: one constructor for each row of spec/opcode_table.json. -/

namespace Sys2Proof

/-- The byte lanes a host request selects (R99); the codes on the port are those of chapter 12.2. -/
inductive Lanes where
  | neither
  | low
  | high
  | both
deriving DecidableEq, Repr

/-- The rows of spec/opcode_table.json. A management command is a frame that carries it, up to its decision point (R172,
log 4); its operands are the argument bytes of chapter 12.2, whole fields taken together, so that a code outside its
range can be sent. The `…Complete` commands are the completions of memory operations: their data are in the attached
memory, which State holds. -/
inductive Instr where
  | status
  | begin
  | commit
  | abort
  | renew
  | readSet (start : Byte)
  | setJournal (base slots : Word)
  | format
  | setRegion (index valid : Byte) (first last : Word) (cls width policy : Byte)
  | getRegion (index : Byte)
  | setDefaults (cls : Byte) (ageLimit : Word) (policy : Byte)
  | saveConfig
  | armMonitor (index : Byte) (addr : BitVec 24) (mask compare : Word) (trigger : Byte)
  | disarmMonitor (index : Byte)
  | getMonitor (index : Byte)
  | readEvents
  | clearEvents (mask : BitVec 24)
  | setEventEnables (mask : BitVec 24)
  | readFault
  | clearFault
  | restart
  | badCommandFrame (code : Byte) (args : List Byte)
  | chipSelectFall
  | chipSelectRise
  | hostWrite (addr : WordAddr) (lanes : Lanes) (data : Word)
  | hostRead (addr : WordAddr) (lanes : Lanes)
  | arbiterGrant
  | hostReadComplete
  | queueWordWriteComplete
  | appendBlockReadComplete
  | appendSlotWriteComplete
  | rollbackSlotReadComplete
  | restoreWriteComplete
  | commitAnchorWriteComplete
  | abortAnchorWriteComplete
  | zeroAnchorWriteComplete
  | formatConfigWriteComplete
  | zeroSlotWriteComplete
  | formatAnchorWriteComplete
  | saveConfigWriteComplete
  | armingReadComplete
  | configReadComplete
  | anchorReadComplete
  | scanSlotReadComplete
  | recoveryAnchorWriteComplete
  | ageTick
  | ageExpiry
  | pfwAssert
  | pfwDeassert
  | powerOn
  | powerLoss
  | powerResetEnd
  | rstnAssert
  | rstnDeassert
  | managementByteComplete (byte : Byte)
deriving DecidableEq, Repr

end Sys2Proof
end

