-- ==== Sys2Proof/Decode.lean ====
section
/-! DEFINITION. The commands of the management port as frames (chapter 12.2), read and written, and the reading of a
word of spec/opcode_table.json, which gives no row any bits. -/

namespace Sys2Proof

/-! ## Fields of several bytes, most significant byte first (00_scope.md, Conventions) -/

/-- A two-byte field. -/
def bytes16 (w : Word) : List Byte := [w.extractLsb' 8 8, w.extractLsb' 0 8]

/-- A three-byte field. -/
def bytes24 (a : BitVec 24) : List Byte := [a.extractLsb' 16 8, a.extractLsb' 8 8, a.extractLsb' 0 8]

/-- A four-byte field. -/
def bytes32 (x : Serial) : List Byte :=
  [x.extractLsb' 24 8, x.extractLsb' 16 8, x.extractLsb' 8 8, x.extractLsb' 0 8]

/-- A word from its more and its less significant byte. -/
def word16 (hi lo : Byte) : Word := hi ++ lo

/-- A 24-bit field from its bytes. -/
def word24 (hi mid lo : Byte) : BitVec 24 := hi ++ mid ++ lo

/-! ## Command codes -/

/-- The twenty-one commands of the port (section 11.4). -/
inductive Command where
  | status
  | readEvents
  | clearEvents
  | setEventEnables
  | readFault
  | clearFault
  | begin
  | commit
  | abort
  | renew
  | readSet
  | setJournal
  | format
  | setRegion
  | getRegion
  | setDefaults
  | saveConfig
  | armMonitor
  | disarmMonitor
  | getMonitor
  | restart
deriving DecidableEq, Repr

/-- Every command of the port. -/
def Command.all : List Command :=
  [.status, .readEvents, .clearEvents, .setEventEnables, .readFault, .clearFault, .begin, .commit, .abort, .renew,
   .readSet, .setJournal, .format, .setRegion, .getRegion, .setDefaults, .saveConfig, .armMonitor, .disarmMonitor,
   .getMonitor, .restart]

/-- The command code (chapter 12.2, Commands). -/
def Command.code : Command → Byte
  | .status => 0x10
  | .readEvents => 0x11
  | .clearEvents => 0x12
  | .setEventEnables => 0x13
  | .readFault => 0x14
  | .clearFault => 0x15
  | .begin => 0x20
  | .commit => 0x21
  | .abort => 0x22
  | .renew => 0x23
  | .readSet => 0x24
  | .setJournal => 0x30
  | .format => 0x31
  | .setRegion => 0x40
  | .getRegion => 0x41
  | .setDefaults => 0x42
  | .saveConfig => 0x43
  | .armMonitor => 0x50
  | .disarmMonitor => 0x51
  | .getMonitor => 0x52
  | .restart => 0x7E

/-- N, the fixed argument count (chapter 12.2, Commands). -/
def Command.argCount : Command → Nat
  | .clearEvents | .setEventEnables => 3
  | .readSet | .getRegion | .disarmMonitor | .getMonitor => 1
  | .setJournal | .setDefaults => 4
  | .setRegion | .armMonitor => 9
  | .status | .readEvents | .readFault | .clearFault | .begin | .commit | .abort | .renew | .format | .saveConfig
  | .restart => 0

/-- The command a code names; none is BAD_COMMAND (R172 check 1). -/
def Command.ofCode (code : Byte) : Option Command := Command.all.find? (fun c => c.code == code)

/-! ## Frames -/

/-- The code and the arguments of the frame that carries a management command; none for every other row. -/
def frameOf : Instr → Option (Byte × List Byte)
  | .status => some (Command.code .status, [])
  | .begin => some (Command.code .begin, [])
  | .commit => some (Command.code .commit, [])
  | .abort => some (Command.code .abort, [])
  | .renew => some (Command.code .renew, [])
  | .readSet start => some (Command.code .readSet, [start])
  | .setJournal base slots => some (Command.code .setJournal, bytes16 base ++ bytes16 slots)
  | .format => some (Command.code .format, [])
  | .setRegion index valid first last cls width policy =>
    some (Command.code .setRegion, [index, valid] ++ bytes16 first ++ bytes16 last ++ [cls, width, policy])
  | .getRegion index => some (Command.code .getRegion, [index])
  | .setDefaults cls ageLimit policy => some (Command.code .setDefaults, [cls] ++ bytes16 ageLimit ++ [policy])
  | .saveConfig => some (Command.code .saveConfig, [])
  | .armMonitor index addr mask compare trigger =>
    some (Command.code .armMonitor, [index] ++ bytes24 addr ++ bytes16 mask ++ bytes16 compare ++ [trigger])
  | .disarmMonitor index => some (Command.code .disarmMonitor, [index])
  | .getMonitor index => some (Command.code .getMonitor, [index])
  | .readEvents => some (Command.code .readEvents, [])
  | .clearEvents mask => some (Command.code .clearEvents, bytes24 mask)
  | .setEventEnables mask => some (Command.code .setEventEnables, bytes24 mask)
  | .readFault => some (Command.code .readFault, [])
  | .clearFault => some (Command.code .clearFault, [])
  | .restart => some (Command.code .restart, [])
  | .badCommandFrame code args => some (code, args)
  | .chipSelectFall | .chipSelectRise | .hostWrite _ _ _ | .hostRead _ _ | .arbiterGrant | .hostReadComplete
  | .queueWordWriteComplete | .appendBlockReadComplete | .appendSlotWriteComplete | .rollbackSlotReadComplete
  | .restoreWriteComplete | .commitAnchorWriteComplete | .abortAnchorWriteComplete | .zeroAnchorWriteComplete
  | .formatConfigWriteComplete | .zeroSlotWriteComplete | .formatAnchorWriteComplete | .saveConfigWriteComplete
  | .armingReadComplete | .configReadComplete | .anchorReadComplete | .scanSlotReadComplete
  | .recoveryAnchorWriteComplete | .ageTick | .ageExpiry | .pfwAssert | .pfwDeassert | .powerOn | .powerLoss
  | .powerResetEnd | .rstnAssert | .rstnDeassert | .managementByteComplete _ => none

/-- A command with no argument. -/
def decode0 (i : Instr) : List Byte → Option Instr
  | [] => some i
  | _ => none

/-- A command with one argument byte. -/
def decode1 (f : Byte → Instr) : List Byte → Option Instr
  | [a] => some (f a)
  | _ => none

/-- A command with three argument bytes, a flag mask. -/
def decode3 (f : BitVec 24 → Instr) : List Byte → Option Instr
  | [a, b, c] => some (f (word24 a b c))
  | _ => none

/-- SET_JOURNAL's four argument bytes. -/
def decodeSetJournal : List Byte → Option Instr
  | [b1, b0, s1, s0] => some (.setJournal (word16 b1 b0) (word16 s1 s0))
  | _ => none

/-- SET_DEFAULTS's four argument bytes. -/
def decodeSetDefaults : List Byte → Option Instr
  | [cls, a1, a0, policy] => some (.setDefaults cls (word16 a1 a0) policy)
  | _ => none

/-- SET_REGION's nine argument bytes. -/
def decodeSetRegion : List Byte → Option Instr
  | [index, valid, f1, f0, l1, l0, cls, width, policy] =>
    some (.setRegion index valid (word16 f1 f0) (word16 l1 l0) cls width policy)
  | _ => none

/-- ARM_MONITOR's nine argument bytes. -/
def decodeArmMonitor : List Byte → Option Instr
  | [index, a2, a1, a0, m1, m0, c1, c0, trigger] =>
    some (.armMonitor index (word24 a2 a1 a0) (word16 m1 m0) (word16 c1 c0) trigger)
  | _ => none

/-- The command with its operands, from its argument bytes; none where the bytes are not N in number (BAD_LENGTH). -/
def decodeArgs : Command → List Byte → Option Instr
  | .status => decode0 .status
  | .readEvents => decode0 .readEvents
  | .clearEvents => decode3 .clearEvents
  | .setEventEnables => decode3 .setEventEnables
  | .readFault => decode0 .readFault
  | .clearFault => decode0 .clearFault
  | .begin => decode0 .begin
  | .commit => decode0 .commit
  | .abort => decode0 .abort
  | .renew => decode0 .renew
  | .readSet => decode1 .readSet
  | .setJournal => decodeSetJournal
  | .format => decode0 .format
  | .setRegion => decodeSetRegion
  | .getRegion => decode1 .getRegion
  | .setDefaults => decodeSetDefaults
  | .saveConfig => decode0 .saveConfig
  | .armMonitor => decodeArmMonitor
  | .disarmMonitor => decode1 .disarmMonitor
  | .getMonitor => decode1 .getMonitor
  | .restart => decode0 .restart

/-- The row that a decided frame is: the command its code names, or BAD_COMMAND_FRAME. None where N is not the command's
argument count (BAD_LENGTH), or more bytes than a count byte can name. -/
def decodeFrame (code : Byte) (args : List Byte) : Option Instr :=
  match Command.ofCode code with
  | some c => decodeArgs c args
  | none => if args.length ≤ 255 then some (.badCommandFrame code args) else none

/-- No row of spec/opcode_table.json gives bits, so no word spells a command. -/
def decodeTableWord (_nbits _w : Nat) : Option Instr := none

end Sys2Proof
end

