-- ==== Sys2Proof/Machine/State.lean ====
section
/-! DEFINITION. The state of the part, block by block (00_scope.md, Block overview), and its value right after reset. -/

namespace Sys2Proof.Machine

/-! ## Outcomes -/

/-- The part never stops with a fault: a refused access or command is answered and the part goes on (R102, R174). So
there is no fault to raise. -/
inductive Fault where
deriving DecidableEq, Repr

/-- Why a command has no meaning. -/
inductive Refusal where
  /-- Raised by an arm of `exec` whose row has no meaning yet, and by no meaning. Safe: the machine stops. -/
  | notModelled (mnemonic : String)
deriving DecidableEq, Repr

/-! ## Epoch Controller (section 1.1) -/

/-- The epoch states. -/
inductive EpochState where
  | idle
  | opened
  | doomed
  | closing
  | rollingBack
deriving DecidableEq, Repr

/-- The epoch record (R1, section 1.1). -/
structure Epoch where
  state : EpochState := .idle
  serial : Serial := 0
  reserved : Nat := 0
  written : Nat := 0
  spills : Nat := 0
  ageElapsed : BitVec 16 := 0
  ageRunning : Bool := false
deriving DecidableEq, Repr

/-! ## Logged-Block Set (section 2.1) -/

/-- The states of an entry of the set. -/
inductive EntryState where
  | pending
  | logged
deriving DecidableEq, Repr

/-- An entry of the set: one block covered in the current epoch. -/
structure SetEntry where
  block : Nat
  state : EntryState
  sequence : Nat
deriving DecidableEq, Repr

/-! ## Journal Engine (chapter 3) -/

/-- The two copies of an anchor, and of the stored configuration. -/
inductive Copy where
  | a
  | b
deriving DecidableEq, Repr

/-- A journal location: base block and slot count (section 3.1). -/
structure Location where
  base : Word := 0
  slots : Word := 0
deriving DecidableEq, Repr

/-- The journal status (R40). -/
inductive JournalStatus where
  | unformatted
  | formatting
  | formatted
deriving DecidableEq, Repr

/-- Where a FORMAT stands: the drain (R56), the two zero anchor writes (R58), the configuration write (R59), the zero
slot writes with the next slot to clear, and the final anchor write (R60, R61). Step 2 takes no time (R57). -/
inductive FormatStep where
  | drain
  | zeroFirst
  | zeroSecond
  | config
  | slots (next : Nat)
  | anchor
deriving DecidableEq, Repr

/-- A FORMAT in progress, with the location that was live when it was taken (R39). -/
structure FormatJob where
  old : Location
  step : FormatStep
deriving DecidableEq, Repr

/-- The Journal Engine. `anchorSerial` is the next serial of the anchor in force, 0 when none is (R50); `preimage` is
the block kept for the record being built (R43). -/
structure Journal where
  live : Location := {}
  staged : Option Location := none
  status : JournalStatus := .unformatted
  inForce : Option Copy := none
  anchorSerial : Serial := 0
  tail : Nat := 0
  preimage : Option (List Word) := none
  format : Option FormatJob := none
deriving DecidableEq, Repr

/-! ## Rollback Engine (section 4.1) -/

/-- The kinds of run. -/
inductive Run where
  | none
  | abort
  | recovery
deriving DecidableEq, Repr

/-- The phases of a run; RESTORE carries the record's block and its 16 pre-image words (R68). -/
inductive RollbackPhase where
  | idle
  | read
  | restore (block : Nat) (words : List Word)
  | paused
  | close
deriving DecidableEq, Repr

/-- The Rollback Engine (R64). -/
structure Rollback where
  run : Run := .none
  phase : RollbackPhase := .idle
  expected : Serial := 0
  baseTail : Nat := 0
  remaining : Nat := 0
  damage : Nat := 0
  lastDamage : Nat := 0
deriving DecidableEq, Repr

/-! ## Region Table (chapter 5) -/

/-- The class of a region. -/
inductive RegionClass where
  | openRegion
  | journaled
  | guarded
deriving DecidableEq, Repr

/-- The write width of a region. -/
inductive Width where
  | any
  | wordOnly
deriving DecidableEq, Repr

/-- The outside-epoch policy of a region. -/
inductive OutsidePolicy where
  | pass
  | refuse
deriving DecidableEq, Repr

/-- A region descriptor (section 5.3); its default is the reset value of R81. -/
structure Descriptor where
  valid : Bool := false
  first : Word := 0
  last : Word := 0
  cls : RegionClass := .openRegion
  width : Width := .any
  policy : OutsidePolicy := .pass
deriving DecidableEq, Repr

/-- The default class. -/
inductive DefaultClass where
  | openDefault
  | refuse
deriving DecidableEq, Repr

/-- The age policy. -/
inductive AgePolicy where
  | notify
  | abort
deriving DecidableEq, Repr

/-- The defaults (section 5.3). -/
structure Defaults where
  cls : DefaultClass := .openDefault
  ageLimit : Word := 0
  agePolicy : AgePolicy := .notify
deriving DecidableEq, Repr

/-- A table of 16 descriptors with its defaults: the live one, or the staged one (R87). -/
structure RegionTable where
  descs : Vector Descriptor 16 := Vector.replicate 16 {}
  defaults : Defaults := {}
deriving DecidableEq, Repr

/-- The Region Table. `staged` is none while the staged-edits flag is clear (R87); `saving` holds while a SAVE_CONFIG is
in progress (R94). -/
structure Regions where
  live : RegionTable := {}
  staged : Option RegionTable := none
  inForce : Option Copy := none
  generation : Serial := 0
  saving : Bool := false
deriving DecidableEq, Repr

/-! ## Host Path (chapter 6) -/

/-- The kind of a host request. -/
inductive AccessKind where
  | read
  | write
deriving DecidableEq, Repr

/-- A request as the host presents it (R99). -/
structure HostRequest where
  kind : AccessKind
  addr : WordAddr
  lanes : Lanes
  data : Word
deriving DecidableEq, Repr

/-- Why a request is held (R100). -/
inductive HoldReason where
  | starting
  | power
  | formatDrain
  | queueFull
  | recovery
  | epoch
  | blockOrder
deriving DecidableEq, Repr

/-- The phase of the request record (R100), with the hold reason of a held request. -/
inductive HostPhase where
  | idle
  | classifying
  | held (reason : HoldReason)
  | grantWait
  | performing
deriving DecidableEq, Repr

/-- Which region classified a write: a descriptor, or the default (R79). -/
inductive RegionIndex where
  | region (i : Fin 16)
  | byDefault
deriving DecidableEq, Repr

/-- The append of a queue entry (R110). -/
structure Append where
  sequence : Nat
  spill : Bool
deriving DecidableEq, Repr

/-- The progress of a queue entry (R110). -/
inductive Progress where
  | appendWaiting
  | appendInFlight
  | writeWaiting
  | writeInProgress
deriving DecidableEq, Repr

/-- An entry of the write queue (R110). -/
structure QueueEntry where
  addr : WordAddr
  data : Word
  lanes : Lanes
  region : RegionIndex
  tag : Option Serial
  append : Option Append
  progress : Progress
deriving DecidableEq, Repr

/-- The Host Path: the phase of the request record, whose other fields are the request as presented (`Lines.presented`),
and the write queue, head first. -/
structure HostPath where
  phase : HostPhase := .idle
  queue : List QueueEntry := []
deriving DecidableEq, Repr

/-! ## Memory Port (chapter 7) -/

/-- The sides between which the arbiter alternates (R123). -/
inductive Side where
  | host
  | device
deriving DecidableEq, Repr

/-- The requester groups (R124). -/
inductive Group where
  | hr
  | wp
  | mt
  | ma
deriving DecidableEq, Repr

/-- What an operation is for. Anchor and configuration writes name the copy they write. `arming` says whether its cell
still waits for it; one whose cell was disarmed meanwhile is discarded when it returns (R154). -/
inductive OpKind where
  | hostRead
  | queueWrite
  | appendRead
  | appendWrite
  | rollbackRead
  | restore
  | commitAnchor (copy : Copy)
  | abortAnchor (copy : Copy)
  | recoveryAnchor (copy : Copy)
  | zeroAnchor (copy : Copy)
  | formatConfig (copy : Copy)
  | zeroSlot
  | formatAnchor
  | saveConfig (copy : Copy)
  | arming (cell : Fin 8) (wanted : Bool)
  | configRead (copy : Copy)
  | anchorRead (copy : Copy)
  | scanRead
deriving DecidableEq, Repr

/-- A unit operation (section 7.1): its first word address, the number of words it reads (0 for a write), the words it
writes (none for a read) and the byte lanes of the write. -/
structure Operation where
  kind : OpKind
  start : WordAddr
  reads : Nat
  writes : List Word
  lanes : Lanes
deriving DecidableEq, Repr

/-- The Memory Port (R123). -/
structure Port where
  op : Option Operation := none
  alternation : Side := .device
deriving DecidableEq, Repr

/-! ## Start-up and Power Controller (section 8.1) -/

/-- The device states. -/
inductive DeviceState where
  | starting
  | recovering
  | ready
deriving DecidableEq, Repr

/-- The start-up steps. -/
inductive StartStep where
  | configRead
  | anchorRead
  | scan
  | rollback
  | anchorWrite
  | done
deriving DecidableEq, Repr

/-- The causes of a reset (R134). -/
inductive ResetCause where
  | power
  | line
  | command
deriving DecidableEq, Repr

/-- The Start-up and Power Controller (R133). `firstCopy` keeps the words of copy A while copy B is read (R179). -/
structure Control where
  device : DeviceState := .starting
  step : StartStep := .configRead
  scanIndex : Nat := 0
  hold : Bool := false
  cause : ResetCause := .power
  restartPending : Bool := false
  lastN : Nat := 0
  lastDamage : Nat := 0
  firstCopy : Option (List Word) := none
deriving DecidableEq, Repr

/-! ## Condition Monitors (section 9.1) -/

/-- The states of a cell. -/
inductive CellState where
  | disarmed
  | arming
  | matching
  | mismatch
deriving DecidableEq, Repr

/-- The change a cell counts. -/
inductive Trigger where
  | depart
  | arrive
deriving DecidableEq, Repr

/-- The kind of write that caused a trigger. -/
inductive Source where
  | host
  | rollback
deriving DecidableEq, Repr

/-- A monitor cell; its default is the reset value of R151. -/
structure Cell where
  state : CellState := .disarmed
  addr : WordAddr := 0
  mask : Word := 0
  compare : Word := 0
  trigger : Trigger := .depart
  shadow : Word := 0
  count : Nat := 0
  lastSource : Source := .host
deriving DecidableEq, Repr

/-! ## Event Unit (chapter 10) -/

/-- Why a host request is refused (R102). -/
inductive RefusalReason where
  | deviceArea
  | journalArea
  | unmapped
  | guarded
  | width
  | outsideEpoch
  | journalFull
  | doomed
deriving DecidableEq, Repr

/-- A full fault capture record (section 10.4). -/
structure FaultRecord where
  kind : AccessKind
  addr : WordAddr
  lanes : Lanes
  reason : RefusalReason
  serial : Serial
deriving DecidableEq, Repr

/-- The Event Unit: flags and enables by position (chapter 12.2), the fault capture record, none when it is empty
(R167), and the refusal count. -/
structure Events where
  flags : BitVec 22 := 0
  enables : BitVec 22 := 0
  fault : Option FaultRecord := none
  refusals : Nat := 0
deriving DecidableEq, Repr

/-! ## Management Port (R170) -/

/-- The phases of a frame. -/
inductive FramePhase where
  | idle
  | waitRise
  | code
  | count
  | arguments
  | turnaround
  | status
  | replyCount
  | reply
  | trailing
deriving DecidableEq, Repr

/-- The status codes (R174). -/
inductive Status where
  | ok
  | accepted
  | badCommand
  | badLength
  | badArgument
  | state
  | busy
  | conflict
  | notFormatted
  | exhausted
  | doomed
deriving DecidableEq, Repr

/-- The frame record (R170). `bits` is the bit count: the bits received of the byte in hand, 0 to 7. -/
structure Frame where
  phase : FramePhase := .idle
  bits : Nat := 0
  code : Byte := 0
  count : Byte := 0
  args : List Byte := []
  outcome : Option Status := none
  reply : List Byte := []
  index : Nat := 0
deriving DecidableEq, Repr

/-! ## Lines (00_scope.md, Lines and ports) -/

/-- The supply and the clock input (R134). -/
inductive Supply where
  | off
  | rising
  | inRange
deriving DecidableEq, Repr

/-- The lines: what the outside drives, and the host ready, host error and data lines the part answers with (R99). -/
structure Lines where
  supply : Supply := .inRange
  rstn : Bool := false
  pfw : Bool := false
  csLow : Bool := false
  presented : Option HostRequest := none
  ready : Bool := false
  error : Bool := false
  hostData : Word := 0
deriving DecidableEq, Repr

/-! ## The whole -/

/-- The state of the part and of the attached memory, with the model's own free-value counter (logs 3 and 29) and
the queue of waiting commands. `mem` lists bytes as `Memory.wf` says (Machine/Memory.lean). -/
structure State where
  epoch : Epoch := {}
  loggedSet : List SetEntry := []
  journal : Journal := {}
  rollback : Rollback := {}
  regions : Regions := {}
  host : HostPath := {}
  port : Port := {}
  control : Control := {}
  monitors : Vector Cell 8 := Vector.replicate 8 {}
  events : Events := {}
  frame : Frame := {}
  lines : Lines := {}
  mem : List Host.Cell := []
  freeCount : Nat := 0
  pending : List Instr := []
deriving DecidableEq, Repr

/-- The part right after a reset of cause POWER, every block at the reset value its chapter states (R133, R134): PFW
deasserted, chip select high and no host request presented (log 7), the memory with nothing listed (log 2). -/
def State.reset : State := {}

end Sys2Proof.Machine
end

