-- ==== Sys2Proof/Machine/Memory.lean ====
section
/-! DEFINITION. The attached memory (R122): bytes in canonical form, words of two byte lanes, and the words of a unit
operation in ascending order (R121). -/

namespace Sys2Proof.Machine

/-- What a byte reads as that nothing has written. DESIGN CHOICE (log 2), unsafe: R122 gives no first contents. -/
def blankByte : Byte := 0

/-- The number of bytes of the attached memory: two lanes of 1,048,576 words. -/
def memoryBytes : Nat := 2097152

/-- The canonical form: addresses strictly rise, no listed byte is blank, every address is in the memory. -/
abbrev Memory.wf (m : List Host.Cell) : Prop :=
  m.Pairwise (fun c d => c.1 < d.1) ∧ ∀ c ∈ m, c.2 ≠ blankByte ∧ c.1 < memoryBytes

/-- The byte at an address. -/
def readByte : List Host.Cell → Nat → Byte
  | [], _ => blankByte
  | (k, v) :: rest, a => if k = a then v else readByte rest a

/-- The memory after one byte is written. -/
def writeByte : List Host.Cell → Nat → Byte → List Host.Cell
  | [], a, v => if v = blankByte then [] else [(a, v)]
  | (k, w) :: rest, a, v =>
    if a < k then (if v = blankByte then (k, w) :: rest else (a, v) :: (k, w) :: rest)
    else if a = k then (if v = blankByte then rest else (a, v) :: rest)
    else (k, w) :: writeByte rest a v

/-- The byte address of the low lane of a word (log 1). -/
def lowByteAt (a : WordAddr) : Nat := 2 * a.toNat

/-- The byte address of the high lane of a word (log 1). -/
def highByteAt (a : WordAddr) : Nat := 2 * a.toNat + 1

/-- The word at a word address. -/
def readWord (m : List Host.Cell) (a : WordAddr) : Word :=
  readByte m (highByteAt a) ++ readByte m (lowByteAt a)

/-- The byte-lane merge of R121 and R156: the lanes selected come from the new word, the others stay. -/
def mergeLanes (old new : Word) : Lanes → Word
  | .neither => old
  | .low => old.extractLsb' 8 8 ++ new.extractLsb' 0 8
  | .high => new.extractLsb' 8 8 ++ old.extractLsb' 0 8
  | .both => new

/-- A word write with its byte lanes: a lane not selected is left as the memory holds it (R121). -/
def writeWord (m : List Host.Cell) (a : WordAddr) (lanes : Lanes) (w : Word) : List Host.Cell :=
  match lanes with
  | .neither => m
  | .low => writeByte m (lowByteAt a) (w.extractLsb' 0 8)
  | .high => writeByte m (highByteAt a) (w.extractLsb' 8 8)
  | .both => writeByte (writeByte m (lowByteAt a) (w.extractLsb' 0 8)) (highByteAt a) (w.extractLsb' 8 8)

/-- The words read from an address upward. -/
def readWords (m : List Host.Cell) (a : WordAddr) : Nat → List Word
  | 0 => []
  | n + 1 => readWord m a :: readWords m (a + 1) n

/-- Words written from an address upward (R121). -/
def writeWords (m : List Host.Cell) (a : WordAddr) (lanes : Lanes) : List Word → List Host.Cell
  | [] => m
  | w :: rest => writeWords (writeWord m a lanes w) (a + 1) lanes rest

/-- A mixture of two words: the new bits where the mask is 1 (R132). -/
def mixWords (old new mask : Word) : Word := (old &&& ~~~mask) ||| (new &&& mask)

/-- A write cut short at word `cut`: the words before it are new, the words after it old, and the word itself a mixture of
the two (R132). -/
def tornWords (m : List Host.Cell) (a : WordAddr) (lanes : Lanes) (mask : Word) : List Word → Nat → List Host.Cell
  | [], _ => m
  | w :: _, 0 => writeWord m a .both (mixWords (readWord m a) (mergeLanes (readWord m a) w lanes) mask)
  | w :: rest, cut + 1 => tornWords (writeWord m a lanes w) (a + 1) lanes mask rest cut

end Sys2Proof.Machine
end

