-- ==== Sys2Proof/Machine/Operands.lean ====
section
/-! DEFINITION. The codes of chapter 12, journal locations and blocks, and the three stored records: how each is written
and how it is judged (R39, R41, R42, R48, R49, R90, R91, R179). -/

namespace Sys2Proof.Machine

/-! ## Blocks and locations -/

/-- The block of a word address: the address divided by 16, the remainder discarded. -/
def blockOf (a : WordAddr) : Nat := a.toNat / Config.blockWords

/-- The first word of a block. -/
def blockStart (block : Nat) : WordAddr := BitVec.ofNat 20 (Config.blockWords * block)

/-- The number of blocks of a location's area: ceil(22 × slot count / 16) (R39). -/
def Location.blocks (l : Location) : Nat :=
  (Config.slotWords * l.slots.toNat + (Config.blockWords - 1)) / Config.blockWords

/-- The last block of a location's area (R39). -/
def Location.last (l : Location) : Nat := l.base.toNat + l.blocks - 1

/-- Whether a block lies in a location's area; a slot count of 0 has an empty area (R39). -/
def Location.covers (l : Location) (block : Nat) : Bool :=
  l.slots != 0 && decide (l.base.toNat ≤ block) && decide (block ≤ l.last)

/-- Whether a location is valid for use (R39). -/
def Location.validForUse (l : Location) : Bool :=
  decide (Config.firstFreeBlock ≤ l.base.toNat) && decide (1 ≤ l.slots.toNat) &&
    decide (l.slots.toNat ≤ Config.maxSlots) && decide (l.last ≤ Config.lastBlock)

/-- The first word of slot s of a location (R39). -/
def Location.slotStart (l : Location) (s : Nat) : WordAddr :=
  BitVec.ofNat 20 (Config.blockWords * l.base.toNat + Config.slotWords * s)

/-- A slot of the ring counted from a tail: (tail + s) mod slot count (R44, R68, R139). -/
def Location.ring (l : Location) (tail s : Nat) : Nat := (tail + s) % l.slots.toNat

/-- Whether a valid descriptor covers a block (R79). -/
def Descriptor.covers (d : Descriptor) (block : Nat) : Bool :=
  d.valid && decide (d.first.toNat ≤ block) && decide (block ≤ d.last.toNat)

/-- Whether two descriptors are valid and overlap (R82). -/
def Descriptor.overlaps (d e : Descriptor) : Bool :=
  d.valid && e.valid && decide (d.first.toNat ≤ e.last.toNat) && decide (e.first.toNat ≤ d.last.toNat)

/-- Whether a valid descriptor overlaps a journal area (R82). -/
def Descriptor.overlapsArea (d : Descriptor) (l : Location) : Bool :=
  d.valid && (l.slots != 0) && decide (d.first.toNat ≤ l.last) && decide (l.base.toNat ≤ d.last.toNat)

/-- The law of R82 on a table and a journal location: valid descriptors are in order, outside the device area and the
journal area, and apart from each other. -/
def RegionTable.lawful (t : RegionTable) (l : Location) : Bool :=
  (List.finRange 16).all (fun i =>
    !t.descs[i].valid ||
      (decide (t.descs[i].first.toNat ≤ t.descs[i].last.toNat) &&
        decide (Config.firstFreeBlock ≤ t.descs[i].first.toNat) &&
        !t.descs[i].overlapsArea l &&
        (List.finRange 16).all (fun j => i == j || !t.descs[i].overlaps t.descs[j])))

/-- The other copy. -/
def Copy.other : Copy → Copy
  | .a => .b
  | .b => .a

/-- The copy not in force, where a write goes: B when A is in force, A when B or none is (R51, R58, R90). -/
def copyNotInForce : Option Copy → Copy
  | some .a => .b
  | some .b => .a
  | none => .a

/-- The first word of an anchor copy: 128 or 136 (section 3.4). -/
def Copy.anchorStart : Copy → WordAddr
  | .a => 128
  | .b => 136

/-- The first word of a configuration copy: 0 or 64 (section 5.5). -/
def Copy.configStart : Copy → WordAddr
  | .a => 0
  | .b => 64

/-! ## Codes (chapter 12) -/

/-- The code of a yes/no field. -/
def boolCode (b : Bool) : Byte := if b then 1 else 0

/-- A count that a reply carries in one byte. -/
def byteOf (n : Nat) : Byte := BitVec.ofNat 8 n

/-- A count that a reply or a record carries in one word. -/
def wordOf (n : Nat) : Word := BitVec.ofNat 16 n

def RegionClass.code : RegionClass → Byte
  | .openRegion => 0
  | .journaled => 1
  | .guarded => 2

def RegionClass.ofCode (n : Nat) : Option RegionClass :=
  match n with
  | 0 => some .openRegion
  | 1 => some .journaled
  | 2 => some .guarded
  | _ => none

def Width.code : Width → Byte
  | .any => 0
  | .wordOnly => 1

def Width.ofCode (n : Nat) : Option Width :=
  match n with
  | 0 => some .any
  | 1 => some .wordOnly
  | _ => none

def OutsidePolicy.code : OutsidePolicy → Byte
  | .pass => 0
  | .refuse => 1

def OutsidePolicy.ofCode (n : Nat) : Option OutsidePolicy :=
  match n with
  | 0 => some .pass
  | 1 => some .refuse
  | _ => none

def DefaultClass.code : DefaultClass → Byte
  | .openDefault => 0
  | .refuse => 1

def DefaultClass.ofCode (n : Nat) : Option DefaultClass :=
  match n with
  | 0 => some .openDefault
  | 1 => some .refuse
  | _ => none

def AgePolicy.code : AgePolicy → Byte
  | .notify => 0
  | .abort => 1

def AgePolicy.ofCode (n : Nat) : Option AgePolicy :=
  match n with
  | 0 => some .notify
  | 1 => some .abort
  | _ => none

/-- The code of a valid flag: 0 no, 1 yes, others none. -/
def validOfCode (n : Nat) : Option Bool :=
  match n with
  | 0 => some false
  | 1 => some true
  | _ => none

def Trigger.code : Trigger → Byte
  | .depart => 0
  | .arrive => 1

def Trigger.ofCode (n : Nat) : Option Trigger :=
  match n with
  | 0 => some .depart
  | 1 => some .arrive
  | _ => none

def Copy.code : Copy → Byte
  | .a => 0
  | .b => 1

def DeviceState.code : DeviceState → Byte
  | .starting => 0
  | .recovering => 1
  | .ready => 2

def JournalStatus.code : JournalStatus → Byte
  | .unformatted => 0
  | .formatting => 1
  | .formatted => 2

def EpochState.code : EpochState → Byte
  | .idle => 0
  | .opened => 1
  | .doomed => 2
  | .closing => 3
  | .rollingBack => 4

def ResetCause.code : ResetCause → Byte
  | .power => 0
  | .line => 1
  | .command => 2

def EntryState.code : EntryState → Byte
  | .pending => 0
  | .logged => 1

def CellState.code : CellState → Byte
  | .disarmed => 0
  | .arming => 1
  | .matching => 2
  | .mismatch => 3

def Source.code : Source → Byte
  | .host => 0
  | .rollback => 1

def AccessKind.code : AccessKind → Byte
  | .read => 0
  | .write => 1

def lanesCode : Lanes → Byte
  | .neither => 0
  | .low => 1
  | .high => 2
  | .both => 3

def RefusalReason.code : RefusalReason → Byte
  | .deviceArea => 0
  | .journalArea => 1
  | .unmapped => 2
  | .guarded => 3
  | .width => 4
  | .outsideEpoch => 5
  | .journalFull => 6
  | .doomed => 7

def Status.code : Status → Byte
  | .ok => 0xA0
  | .accepted => 0xA1
  | .badCommand => 0xE0
  | .badLength => 0xE1
  | .badArgument => 0xE2
  | .state => 0xE3
  | .busy => 0xE4
  | .conflict => 0xE5
  | .notFormatted => 0xE6
  | .exhausted => 0xE7
  | .doomed => 0xE8

/-- A descriptor on the port, 8 bytes (chapter 12.2). -/
def Descriptor.bytes (d : Descriptor) : List Byte :=
  [boolCode d.valid] ++ bytes16 d.first ++ bytes16 d.last ++ [d.cls.code, d.width.code, d.policy.code]

/-- The defaults on the port, 4 bytes (chapter 12.2). -/
def Defaults.bytes (d : Defaults) : List Byte :=
  [d.cls.code] ++ bytes16 d.ageLimit ++ [d.agePolicy.code]

/-- A word address on the port, 3 bytes with the top four bits 0 (chapter 12.2). -/
def addrBytes (a : WordAddr) : List Byte := bytes24 (a.setWidth 24)

/-! ## Two-word fields and check words -/

/-- The two words of a serial or a generation, the more significant first (00_scope.md, Conventions). -/
def words32 (x : Serial) : List Word := [x.extractLsb' 16 16, x.extractLsb' 0 16]

/-- A serial or a generation from its two words. -/
def serialOf (hi lo : Word) : Serial := hi ++ lo

/-- A record with its check word: the 16-bit wrapping sum of all words is `target`. -/
def withCheck (target : Word) (body : List Word) : List Word := body ++ [target - body.sum]

/-- The word of a record at an offset. -/
def wordAt (ws : List Word) (offset : Nat) : Word := ws.getD offset 0

/-! ## The journal record (section 3.2) -/

/-- The 22 words of a record (R41): kind 2 for a spill, else 1. -/
def recordWords (spill : Bool) (serial : Serial) (sequence block : Nat) (preimage : List Word) : List Word :=
  withCheck Config.recordSum
    ([if spill then 2 else 1] ++ words32 serial ++ [wordOf sequence, wordOf block] ++ preimage)

/-- The judgement of R42 against an expected serial and sequence and the live location: the block and the pre-image of a
valid record, none for an invalid one. -/
def judgeRecord (expected : Serial) (sequence : Nat) (live : Location) (ws : List Word) : Option (Nat × List Word) :=
  if ws.sum = Config.recordSum ∧ (wordAt ws 0 = 1 ∨ wordAt ws 0 = 2) ∧
      serialOf (wordAt ws 1) (wordAt ws 2) = expected ∧ (wordAt ws 3).toNat = sequence ∧
      Config.firstFreeBlock ≤ (wordAt ws 4).toNat ∧ live.covers (wordAt ws 4).toNat = false then
    some ((wordAt ws 4).toNat, (ws.drop 5).take Config.blockWords)
  else none

/-- A zero slot (R41, R60). -/
def zeroSlotWords : List Word := List.replicate Config.slotWords 0

/-! ## The anchor (section 3.4) -/

/-- The 8 words of an anchor (R48). -/
def anchorWords (next : Serial) (tail : Nat) (l : Location) : List Word :=
  withCheck Config.anchorSum (words32 next ++ [wordOf tail, l.slots, l.base, 0, 0])

/-- A zero anchor (R58). -/
def zeroAnchorWords : List Word := List.replicate Config.anchorWords 0

/-- What a valid anchor fixes. -/
structure Anchor where
  next : Serial
  tail : Nat
deriving DecidableEq, Repr

/-- The judgement of R49 against the location of the configuration loaded. -/
def judgeAnchor (l : Location) (ws : List Word) : Option Anchor :=
  if ws.sum = Config.anchorSum ∧ wordAt ws 3 = l.slots ∧ wordAt ws 4 = l.base ∧
      (wordAt ws 2).toNat < (wordAt ws 3).toNat ∧ serialOf (wordAt ws 0) (wordAt ws 1) ≠ 0 then
    some { next := serialOf (wordAt ws 0) (wordAt ws 1), tail := (wordAt ws 2).toNat }
  else none

/-- The anchor in force: the valid copy with the larger next serial, A when they are equal (R50, R138). -/
def chooseAnchor : Option Anchor → Option Anchor → Option (Copy × Anchor)
  | some a, some b => if a.next < b.next then some (.b, b) else some (.a, a)
  | some a, none => some (.a, a)
  | none, some b => some (.b, b)
  | none, none => none

/-! ## The configuration copy (section 5.5) -/

/-- What a valid configuration copy holds. -/
structure StoredConfig where
  generation : Serial
  location : Location
  table : RegionTable
deriving DecidableEq, Repr

/-- The attribute word of a descriptor (chapter 12.1). -/
def Descriptor.attributes (d : Descriptor) : Word :=
  (boolCode d.valid).setWidth 16 ||| (d.cls.code.setWidth 16 <<< 2) ||| (d.width.code.setWidth 16 <<< 4) |||
    (d.policy.code.setWidth 16 <<< 6)

/-- The three words of a descriptor in a configuration copy (chapter 12.1). -/
def Descriptor.words (d : Descriptor) : List Word := [d.first, d.last, d.attributes]

/-- The 64 words of a configuration copy (R90). -/
def configWords (c : StoredConfig) : List Word :=
  withCheck Config.configSum
    ([Config.configMark] ++ words32 c.generation ++
      [c.location.base, c.location.slots, c.table.defaults.cls.code.setWidth 16, c.table.defaults.ageLimit,
        c.table.defaults.agePolicy.code.setWidth 16] ++
      c.table.descs.toList.flatMap Descriptor.words) ++
    List.replicate 7 0

/-- A descriptor from its three words; none if a field holds no listed code (R91 condition 3, R179). Bits 15 to 8 of the
attribute word are not examined. -/
def descriptorOf (first last attributes : Word) : Option Descriptor :=
  match validOfCode (attributes.extractLsb' 0 2).toNat, RegionClass.ofCode (attributes.extractLsb' 2 2).toNat,
    Width.ofCode (attributes.extractLsb' 4 2).toNat, OutsidePolicy.ofCode (attributes.extractLsb' 6 2).toNat with
  | some valid, some cls, some width, some policy =>
    some { valid := valid, first := first, last := last, cls := cls, width := width, policy := policy }
  | _, _, _, _ => none

/-- Descriptor i of a configuration copy, at offset 8 + 3i. -/
def descriptorAt (ws : List Word) (i : Nat) : Option Descriptor :=
  descriptorOf (wordAt ws (8 + 3 * i)) (wordAt ws (9 + 3 * i)) (wordAt ws (10 + 3 * i))

/-- The location a copy names: its base block is not examined when its slot count is 0 (R39, R91). -/
def locationAt (ws : List Word) : Location :=
  if wordAt ws 4 = 0 then {} else { base := wordAt ws 3, slots := wordAt ws 4 }

/-- The table of a copy, when every descriptor holds listed codes. -/
def descriptorsAt (ws : List Word) : Option (Vector Descriptor 16) :=
  if (List.finRange 16).all (fun i => (descriptorAt ws i).isSome) then
    some (Vector.ofFn (fun i : Fin 16 => (descriptorAt ws i).getD {}))
  else none

/-- The judgement of R91 on the 64 words of a copy. -/
def judgeConfig (ws : List Word) : Option StoredConfig :=
  match descriptorsAt ws, DefaultClass.ofCode (wordAt ws 5).toNat, AgePolicy.ofCode (wordAt ws 7).toNat with
  | some descs, some cls, some policy =>
    if wordAt ws 0 = Config.configMark ∧ (ws.take 57).sum = Config.configSum ∧
        (wordAt ws 4 = 0 ∨ (locationAt ws).validForUse = true) ∧
        RegionTable.lawful
          { descs := descs, defaults := { cls := cls, ageLimit := wordAt ws 6, agePolicy := policy } }
          (locationAt ws) = true ∧
        serialOf (wordAt ws 1) (wordAt ws 2) ≠ 0 then
      some
        { generation := serialOf (wordAt ws 1) (wordAt ws 2)
          location := locationAt ws
          table := { descs := descs, defaults := { cls := cls, ageLimit := wordAt ws 6, agePolicy := policy } } }
    else none
  | _, _, _ => none

end Sys2Proof.Machine
end

