-- ==== Sys2Proof/Machine/Flags.lean ====
section
/-! DEFINITION. The Event Unit's operations: event flags by position, ATTN, the fault capture (chapter 10). -/

namespace Sys2Proof.Machine

/-- The 22 event flags (section 10.1). -/
inductive EventFlag where
  | commitDone
  | abortDone
  | doomed
  | ageExpired
  | hostRefusal
  | rollbackDamage
  | startDone
  | recovered
  | configInvalid
  | journalInvalid
  | formatDone
  | configSaved
  | holdEntered
  | holdLeft
  | mon (cell : Fin 8)
deriving DecidableEq, Repr

/-- The position of a flag (chapter 12.2, Event flag positions). -/
def EventFlag.position : EventFlag → Nat
  | .commitDone => 0
  | .abortDone => 1
  | .doomed => 2
  | .ageExpired => 3
  | .hostRefusal => 4
  | .rollbackDamage => 5
  | .startDone => 6
  | .recovered => 7
  | .configInvalid => 8
  | .journalInvalid => 9
  | .formatDone => 10
  | .configSaved => 11
  | .holdEntered => 12
  | .holdLeft => 13
  | .mon cell => 14 + cell.val

/-- The mask of a flag. -/
def EventFlag.mask (f : EventFlag) : BitVec 22 := BitVec.twoPow 22 f.position

/-- Whether a flag is set. -/
def Events.has (e : Events) (f : EventFlag) : Bool := e.flags.getLsbD f.position

/-- A flag is set, whatever its enable; a flag already set stays set (R162). -/
def Events.raise (e : Events) (f : EventFlag) : Events := { e with flags := e.flags ||| f.mask }

/-- A flag is set in the state's Event Unit (R162). -/
def State.raise (s : State) (f : EventFlag) : State := { s with events := s.events.raise f }

/-- ATTN is asserted exactly when a flag and its enable are both set (R166). While a reset lasts both are clear. -/
def State.attn (s : State) : Bool := s.events.flags &&& s.events.enables != 0

/-- The epoch serial a refusal offers: that of the epoch that exists, or 0 in IDLE (R102). -/
def Epoch.offeredSerial (e : Epoch) : Serial := if e.state = .idle then 0 else e.serial

/-- A refusal is offered: the record takes it if it is empty, the count rises and stays at 255 (R167), and HOST_REFUSAL
is set (R102). -/
def Events.offer (e : Events) (r : FaultRecord) : Events :=
  { (e.raise .hostRefusal) with
    fault := some (e.fault.getD r)
    refusals := min 255 (e.refusals + 1) }

/-- Whether a 24-bit mask has a 1 only in positions that hold a flag: positions 22 and 23 hold none (R163, R164). -/
def maskInRange (mask : BitVec 24) : Bool := mask.extractLsb' 22 2 == 0

/-- The flags and the enables as 3 bytes each (chapter 12.2). -/
def flagBytes (f : BitVec 22) : List Byte := bytes24 (f.setWidth 24)

end Sys2Proof.Machine
end

