-- ==== Sys2Proof/Machine/Ops.lean ====
section
/-! DEFINITION. The operations the commands share: lookup, the acceptance of host requests, the write queue, the epoch's
ends, the rollback run, the monitors' evaluation, start-up's end and the reset. -/

namespace Sys2Proof.Machine

/-! ## Running -/

/-- Whether the part runs: the supply is in range and RSTN is deasserted, so no reset lasts (R134). -/
def State.running (s : State) : Bool := s.lines.supply == .inRange && !s.lines.rstn

/-- The live slot count. -/
def State.slots (s : State) : Nat := s.journal.live.slots.toNat

/-- The live age limit is from 1 to 65,535, so the timer is in use (R3, R17). -/
def State.timed (s : State) : Bool := s.regions.live.defaults.ageLimit != 0

/-! ## Lookup (R79) -/

/-- The answers of a lookup. -/
inductive Lookup where
  | deviceArea
  | journalArea
  | region (index : RegionIndex) (cls : RegionClass) (width : Width) (policy : OutsidePolicy)
  | unmapped
deriving DecidableEq, Repr

/-- Whether a block lies in the live journal area or, while a FORMAT is in progress, in the area live when it was taken or
in the one its step 2 makes live (R39, R79). -/
def State.inJournalArea (s : State) (block : Nat) : Bool :=
  s.journal.live.covers block ||
    match s.journal.format with
    | some job => job.old.covers block || (s.journal.staged.getD s.journal.live).covers block
    | none => false

/-- The descriptor of a table that covers a block. -/
def RegionTable.find (t : RegionTable) (block : Nat) : Option (Fin 16) :=
  (List.finRange 16).find? (fun i => t.descs[i].covers block)

/-- The lookup of a word address, the first case that applies (R79), from the live values (R80). -/
def State.lookup (s : State) (addr : WordAddr) : Lookup :=
  if blockOf addr < Config.firstFreeBlock then .deviceArea
  else if s.inJournalArea (blockOf addr) then .journalArea
  else
    match s.regions.live.find (blockOf addr) with
    | some i =>
      .region (.region i) s.regions.live.descs[i].cls s.regions.live.descs[i].width s.regions.live.descs[i].policy
    | none =>
      match s.regions.live.defaults.cls with
      | .openDefault => .region .byDefault .openRegion .any .pass
      | .refuse => .unmapped

/-! ## Answers to the host (R99, R100) -/

/-- The request is held with a reason (R100). -/
def State.holdHost (s : State) (reason : HoldReason) : State := { s with host.phase := .held reason }

/-- The request is completed: the host ready line is given, with the word of a read (R99). -/
def State.completeHost (s : State) (data : Word) : State :=
  { s with
    host.phase := .idle
    lines := { s.lines with presented := none, ready := true, error := false, hostData := data } }

/-- The request is refused: it is offered to the Event Unit, and the host error line is given with 0x0000 (R99, R102). -/
def State.refuseHost (s : State) (r : HostRequest) (reason : RefusalReason) : State :=
  { s with
    host.phase := .idle
    events := s.events.offer
      { kind := r.kind, addr := r.addr, lanes := r.lanes, reason := reason, serial := s.epoch.offeredSerial }
    lines := { s.lines with presented := none, ready := false, error := true, hostData := 0 } }

/-! ## Write acceptance (section 6.2) -/

/-- The queue entry of an accepted write; one with an append joins in APPEND_WAITING, one without in WRITE_WAITING
(R110). -/
def queueEntryOf (r : HostRequest) (region : RegionIndex) (tag : Option Serial) (append : Option Append) : QueueEntry :=
  { addr := r.addr, data := r.data, lanes := r.lanes, region := region, tag := tag, append := append
    progress := if append.isSome then .appendWaiting else .writeWaiting }

/-- The write joins the queue and is completed at once. A write with lanes NONE is completed without an entry (R104). -/
def State.post (s : State) (r : HostRequest) (region : RegionIndex) (tag : Option Serial) (append : Option Append) :
    State :=
  if r.lanes = .neither then s.completeHost 0
  else { s.completeHost 0 with host.queue := s.host.queue ++ [queueEntryOf r region tag append] }

/-- Whether the set holds an entry for a block, in either state (R27). -/
def State.covered (s : State) (block : Nat) : Bool := s.loggedSet.any (fun e => e.block == block)

/-- The outcomes of a reservation claim (R5, R6). -/
inductive Claim where
  | granted (sequence : Nat)
  | exhausted
  | notGranted
deriving DecidableEq, Repr

/-- A reservation claim, decided against the live slot count (R5, R6). -/
def State.claim (s : State) : Claim :=
  if s.epoch.state ≠ .opened then .notGranted
  else if s.epoch.reserved < s.slots then .granted s.epoch.reserved
  else .exhausted

/-- A granted reservation is entered in the set, or counted as a spill when the set is full (R5, R7, R29, R30). -/
def State.reserve (s : State) (block sequence : Nat) : State :=
  if s.loggedSet.length < Config.setCapacity then
    { s with
      epoch.reserved := s.epoch.reserved + 1
      loggedSet := s.loggedSet ++ [{ block := block, state := .pending, sequence := sequence }] }
  else
    { s with epoch := { s.epoch with reserved := s.epoch.reserved + 1, spills := s.epoch.spills + 1 } }

/-- A refused claim dooms the epoch and sets DOOMED (R5). -/
def State.doom (s : State) : State := { s with epoch.state := .doomed }.raise .doomed

/-- A JOURNALED write in OPEN: a hit, or a claim with its three outcomes (R108); with lanes NONE it is completed without a
lookup (R104). The third outcome needs an event between lookup and claim and cannot arise in one step (log 23). -/
def State.journaledWrite (s : State) (r : HostRequest) (region : RegionIndex) : State :=
  if r.lanes = .neither then s.completeHost 0
  else if s.covered (blockOf r.addr) then s.post r region (some s.epoch.serial) none
  else
    match s.claim with
    | .granted sequence =>
      (s.reserve (blockOf r.addr) sequence).post r region (some s.epoch.serial)
        (some { sequence := sequence, spill := decide (Config.setCapacity ≤ s.loggedSet.length) })
    | .exhausted => s.doom.refuseHost r .journalFull
    | .notGranted => s.holdHost .epoch

/-- The fifth step of write acceptance, by class and epoch state (R106 to R109). CLOSING and ROLLING_BACK do not reach it
for a JOURNALED write (R105). -/
def State.fifthStep (s : State) (r : HostRequest) (region : RegionIndex) (cls : RegionClass) (policy : OutsidePolicy) :
    State :=
  match cls with
  | .openRegion => s.post r region none none
  | .guarded => s.refuseHost r .guarded
  | .journaled =>
    match s.epoch.state with
    | .idle =>
      match policy with
      | .pass => s.post r region none none
      | .refuse => s.refuseHost r .outsideEpoch
    | .opened => s.journaledWrite r region
    | .doomed => s.refuseHost r .doomed
    | .closing => s.holdHost .epoch
    | .rollingBack => s.holdHost .epoch

/-- Whether a FORMAT is in its drain step (R56). -/
def State.draining (s : State) : Bool :=
  match s.journal.format with
  | some job => job.step == .drain
  | none => false

/-- Whether the lanes select a single byte (R104). -/
def singleLane (lanes : Lanes) : Bool := lanes == .low || lanes == .high

/-- Whether the epoch is CLOSING or ROLLING_BACK (R105). -/
def EpochState.ending (e : EpochState) : Bool := e == .closing || e == .rollingBack

/-- Write acceptance, its five steps (R103 to R109). -/
def State.acceptWrite (s : State) (r : HostRequest) : State :=
  if s.control.device = .starting then s.holdHost .starting
  else if s.control.hold then s.holdHost .power
  else if s.draining then s.holdHost .formatDrain
  else
    match s.lookup r.addr with
    | .deviceArea => s.refuseHost r .deviceArea
    | .journalArea => s.refuseHost r .journalArea
    | .unmapped => s.refuseHost r .unmapped
    | .region index cls width policy =>
      if cls = .guarded then s.refuseHost r .guarded
      else if width = .wordOnly ∧ singleLane r.lanes then s.refuseHost r .width
      else if Config.queueCapacity ≤ s.host.queue.length then s.holdHost .queueFull
      else if cls = .journaled ∧ s.control.device = .recovering then s.holdHost .recovery
      else if cls = .journaled ∧ s.epoch.state.ending then s.holdHost .epoch
      else s.fifthStep r index cls policy

/-! ## Reads (section 6.4) -/

/-- Whether a queue entry's word address lies in a block (R116). -/
def State.blockQueued (s : State) (block : Nat) : Bool := s.host.queue.any (fun e => blockOf e.addr == block)

/-- The classification of a read, the first step that applies (R115). -/
def State.acceptRead (s : State) (r : HostRequest) : State :=
  if s.control.device = .starting then s.holdHost .starting
  else if s.control.hold then s.holdHost .power
  else
    match s.lookup r.addr with
    | .deviceArea => s.refuseHost r .deviceArea
    | .journalArea => s.refuseHost r .journalArea
    | .unmapped => s.refuseHost r .unmapped
    | .region _ cls _ _ =>
      if cls = .journaled ∧ s.control.device = .recovering then s.holdHost .recovery
      else if cls = .journaled ∧ s.epoch.state = .rollingBack then s.holdHost .epoch
      else if s.blockQueued (blockOf r.addr) then s.holdHost .blockOrder
      else { s with host.phase := .grantWait }

/-- The request presented is classified, from the first step (R100, R101). -/
def State.classify (s : State) : State :=
  match s.lines.presented with
  | some r =>
    match r.kind with
    | .write => { s with host.phase := .classifying }.acceptWrite r
    | .read => { s with host.phase := .classifying }.acceptRead r
  | none => s

/-- A request held with a reason whose end has come is classified afresh (R101). -/
def State.reclassify (s : State) (reason : HoldReason) : State :=
  if s.host.phase = .held reason then s.classify else s

/-- A read in GRANT_WAIT is classified afresh (R117). -/
def State.reclassifyGrantWait (s : State) : State :=
  if s.host.phase = .grantWait then s.classify else s

/-! ## The Condition Monitors (chapter 9) -/

/-- The state a cell takes from its shadow: MATCH when every selected bit equals the compare value's (R152). -/
def Cell.judged (c : Cell) : CellState :=
  if c.shadow &&& c.mask = c.compare &&& c.mask then .matching else .mismatch

/-- Whether a cell evaluates writes (section 9.1). -/
def Cell.armed (c : Cell) : Bool := c.state == .matching || c.state == .mismatch

/-- Whether a change of state is in the direction of the cell's trigger (R157). -/
def Trigger.counts : Trigger → CellState → CellState → Bool
  | .depart, before, after => before == .matching && after == .mismatch
  | .arrive, before, after => before == .mismatch && after == .matching

/-- The word written at the cell's word address, if the write covers it (R156). -/
def Cell.wordIn (c : Cell) (start : WordAddr) (words : List Word) : Option Word :=
  if start.toNat ≤ c.addr.toNat then words[c.addr.toNat - start.toNat]? else none

/-- The cell after its shadow has taken a word with the write's lanes: the match recomputed (R156). -/
def Cell.merged (c : Cell) (w : Word) (lanes : Lanes) : Cell :=
  { c with
    shadow := mergeLanes c.shadow w lanes
    state := Cell.judged { c with shadow := mergeLanes c.shadow w lanes } }

/-- Whether an armed cell counts a trigger at a write (R157). -/
def Cell.triggered (c : Cell) (start : WordAddr) (words : List Word) (lanes : Lanes) : Bool :=
  match c.wordIn start words with
  | some w => c.armed && c.trigger.counts c.state (c.merged w lanes).state
  | none => false

/-- A cell after a write is shown to it: a cell not armed, or not on a word written, is unchanged (R156); a counted
trigger raises the count, which stays at 15, and names the source (R157). -/
def Cell.evaluate (c : Cell) (start : WordAddr) (words : List Word) (lanes : Lanes) (source : Source) : Cell :=
  match c.wordIn start words with
  | some w =>
    if c.armed then
      if c.triggered start words lanes then
        { c.merged w lanes with count := min 15 (c.count + 1), lastSource := source }
      else c.merged w lanes
    else c
  | none => c

/-- A completed write is shown to the cells (R131, R156); each that triggers sets its flag (R157). -/
def State.showWrite (s : State) (start : WordAddr) (words : List Word) (lanes : Lanes) (source : Source) : State :=
  { s with
    monitors := s.monitors.mapIdx (fun _ c => c.evaluate start words lanes source)
    events := (List.finRange 8).foldl
      (fun e i => if s.monitors[i].triggered start words lanes then e.raise (.mon i) else e) s.events }

/-- The arming read of a cell, if it is being performed, is discarded when it returns (R154). -/
def State.discardArming (s : State) (i : Fin 8) : State :=
  match s.port.op with
  | some op => if op.kind = .arming i true then { s with port.op := some { op with kind := .arming i false } } else s
  | none => s

/-- A cell is put into DISARMED; its other fields keep their values (R151, R155). -/
def State.disarm (s : State) (i : Fin 8) : State :=
  { s with monitors := s.monitors.set i { s.monitors[i] with state := .disarmed } }.discardArming i

/-! ## FORMAT's step 2 (R57) -/

/-- Whether a cell is not DISARMED and watches a word of the live journal area (R57). -/
def State.watchesJournal (s : State) (c : Cell) : Bool := c.state != .disarmed && s.journal.live.covers (blockOf c.addr)

/-- An arming read being performed for a cell that R57 disarms is discarded when it returns (R154). -/
def State.discardJournalArming (s : State) (op : Operation) : Operation :=
  match op.kind with
  | .arming i true => if s.watchesJournal s.monitors[i] then { op with kind := .arming i false } else op
  | _ => op

/-- Every cell not DISARMED whose word lies in the live journal area is put into DISARMED (R57). -/
def State.disarmInJournal (s : State) : State :=
  { s with
    monitors := s.monitors.mapIdx (fun _ c => if s.watchesJournal c then { c with state := .disarmed } else c)
    port.op := s.port.op.map s.discardJournalArming }

/-- Step 2: the staged location, if any, becomes live, cells on the live area are disarmed, step 3 follows, and a write
held with FORMAT_DRAIN is classified afresh (R56, R57, R101). -/
def State.formatSwitch (s : State) : State :=
  let live := s.journal.staged.getD s.journal.live
  let switched : State :=
    { s with
      journal :=
        { s.journal with
          live := live
          staged := none
          format := s.journal.format.map (fun job => { job with step := .zeroFirst }) } }
  switched.disarmInJournal.reclassify .formatDrain

/-! ## Entries leaving the queue (R111, R113) -/

/-- A read held with BLOCK_ORDER is classified afresh if no entry in its block remains (R111, R116). -/
def State.blockOrderNotice (s : State) : State :=
  match s.lines.presented with
  | some r => if s.blockQueued (blockOf r.addr) then s else s.reclassify .blockOrder
  | none => s

/-- The Journal Engine is told when the queue becomes empty in the drain step (R56, R111). -/
def State.drainNotice (s : State) : State :=
  if s.draining ∧ s.host.queue = [] then s.formatSwitch else s

/-- The notices given when an entry has left the queue, in turn (R111). The drain notice of R11 needs none here: the
commit anchor write is asked by what the queue holds (`State.journalWaiting`, log 26). -/
def State.leaveNotices (s : State) : State := (s.reclassify .queueFull).blockOrderNotice.drainNotice

/-- Whether an entry is tagged with a serial. -/
def QueueEntry.taggedWith (e : QueueEntry) (serial : Serial) : Bool := e.tag == some serial

/-- Whether the head's append or word write is under way, so that cancellation lets it finish (R113). -/
def QueueEntry.underWay (e : QueueEntry) : Bool := e.progress == .appendInFlight || e.progress == .writeInProgress

/-- The queue after the entries of an epoch are cancelled (R113): a head under way stays until its operation completes. -/
def cancelQueue (serial : Serial) : List QueueEntry → List QueueEntry
  | [] => []
  | head :: rest =>
    (if head.taggedWith serial && !head.underWay then [] else [head]) ++ rest.filter (fun e => !e.taggedWith serial)

/-- Whether the head's append is in flight (R43, R111). -/
def State.appendInFlight (s : State) : Bool :=
  match s.host.queue with
  | head :: _ => head.progress == .appendInFlight
  | [] => false

/-! ## Ending an epoch -/

/-- The phase in which an abort run of n records starts (R65, R76). -/
def startPhase (hold : Bool) (n : Nat) : RollbackPhase :=
  if hold then .paused else if n = 0 then .close else .read

/-- The abort run starts when the epoch is ROLLING_BACK and no append is in flight: reserved is set to written, and the
engine takes the serial, the tail and n (R15, R65). -/
def State.startAbortRun (s : State) : State :=
  if s.epoch.state = .rollingBack ∧ s.rollback.run = .none ∧ s.appendInFlight = false then
    { s with
      epoch.reserved := s.epoch.written
      rollback :=
        { run := .abort
          phase := startPhase s.control.hold s.epoch.written
          expected := s.epoch.serial
          baseTail := s.journal.tail
          remaining := s.epoch.written
          damage := 0
          lastDamage := 0 } }
  else s

/-- The notices of a cancellation, if it removed an entry (R113). -/
def State.cancelNotices (s : State) (before : Nat) : State :=
  if s.host.queue.length < before then s.leaveNotices else s

/-- What ABORT taken and an expiry under policy ABORT do: ROLLING_BACK, the timer stopped, the epoch's entries cancelled,
the run started if it may, a read in GRANT_WAIT classified afresh, and the notices of the removals (R14, R15, R20, R113,
R117). -/
def State.abortEpoch (s : State) : State :=
  let cancelled : State :=
    { s with
      epoch := { s.epoch with state := .rollingBack, ageRunning := false }
      host.queue := cancelQueue s.epoch.serial s.host.queue }
  cancelled.startAbortRun.reclassifyGrantWait.cancelNotices s.host.queue.length

/-- The epoch reaches IDLE: the serial + 1, zero counters, an empty set, staged edits applied, and then a request held
with EPOCH classified afresh (R13, R34, R88). -/
def State.reachIdle (s : State) : State :=
  { s with
    epoch := { state := .idle, serial := s.epoch.serial + 1 }
    loggedSet := []
    regions := { s.regions with live := s.regions.staged.getD s.regions.live, staged := none } }.reclassify .epoch

/-- An anchor write completes: the copy written is in force, with its next serial and its tail (R51). -/
def State.installAnchor (s : State) (copy : Copy) (next : Serial) (tail : Nat) : State :=
  { s with journal := { s.journal with inForce := some copy, anchorSerial := next, tail := tail } }

/-! ## The rollback run -/

/-- A record is finished: remaining falls, and the run goes on, pauses under the hold flag, or ends (R69, R70, R71, R66,
R76). -/
def State.finishRecord (s : State) : State :=
  if s.rollback.remaining - 1 = 0 then
    match s.rollback.run with
    | .recovery =>
      { s with
        rollback := { s.rollback with run := .none, phase := .idle, remaining := 0 }
        control.step := .anchorWrite }
    | .abort =>
      { s with rollback := { s.rollback with phase := if s.control.hold then .paused else .close, remaining := 0 } }
    | .none => { s with rollback := { s.rollback with phase := .idle, remaining := 0 } }
  else
    { s with
      rollback :=
        { s.rollback with
          phase := if s.control.hold then .paused else .read
          remaining := s.rollback.remaining - 1 } }

/-- The Rollback Engine after a record is judged invalid: the damage count rises, and in an abort run the last rollback
damage count with it (R70). -/
def Rollback.countDamage (r : Rollback) : Rollback :=
  { r with
    damage := r.damage + 1
    lastDamage := if r.run = .abort then r.lastDamage + 1 else r.lastDamage }

/-- A damaged record is counted, sets ROLLBACK_DAMAGE and is finished (R70). -/
def State.damagedRecord (s : State) : State :=
  ({ s with rollback := s.rollback.countDamage }.raise .rollbackDamage).finishRecord

/-- Whether the operation in progress is of a kind. -/
def State.performing (s : State) (p : OpKind → Bool) : Bool :=
  match s.port.op with
  | some op => p op.kind
  | none => false

def OpKind.isRollbackRead : OpKind → Bool
  | .rollbackRead => true
  | _ => false

def OpKind.isAbortAnchor : OpKind → Bool
  | .abortAnchor _ => true
  | _ => false

/-- The hold flag is set: a run pauses unless a record is in hand or the abort anchor write has begun (R76). -/
def State.pauseRun (s : State) : State :=
  match s.rollback.phase with
  | .read => if s.performing OpKind.isRollbackRead then s else { s with rollback.phase := .paused }
  | .close => if s.performing OpKind.isAbortAnchor then s else { s with rollback.phase := .paused }
  | .idle | .restore _ _ | .paused => s

/-- The hold flag clears: a PAUSED run resumes with its next record, or with the abort anchor write (R76). -/
def State.resumeRun (s : State) : State :=
  if s.rollback.phase = .paused then
    { s with rollback.phase := if s.rollback.remaining = 0 then .close else .read }
  else s

/-! ## Start-up (chapter 8) -/

/-- The device reaches READY: the step is DONE, START_DONE is set, and requests held with RECOVERY, or with STARTING when
READY follows STARTING at once, are classified afresh (R136, R142). -/
def State.reachReady (s : State) : State :=
  let ready : State :=
    { s with control := { s.control with device := .ready, step := .done, firstCopy := none } }
  ((ready.raise .startDone).reclassify .starting).reclassify .recovery

/-- A recovery run of n records starts; under the hold flag it begins paused (R66, R76, R144). It restores every record the
scan counted (R66, R67, R141); R77's last paragraph speaks of the newer ones alone (log 27). -/
def State.startRecoveryRun (s : State) (n : Nat) : State :=
  { s with
    control := { s.control with step := .rollback, scanIndex := n }
    rollback :=
      { s.rollback with
        run := .recovery
        phase := if s.control.hold then .paused else .read
        expected := s.journal.anchorSerial
        baseTail := s.journal.tail
        remaining := n
        damage := 0 } }

/-- The scan ends with n records: R140 for none, R141 for one or more. -/
def State.endScan (s : State) (n : Nat) : State :=
  if n = 0 then
    { s with
      epoch.serial := s.journal.anchorSerial
      journal.status := .formatted
      control := { s.control with lastN := 0, lastDamage := 0 } }.reachReady
  else s.startRecoveryRun n

/-! ## Reset (R134) -/

/-- Whether the anchor in force is still the one R50 selects when the other copy judges as given; with none in force, whether
none is valid. -/
def State.anchorStands (s : State) (other : Option Anchor) : Bool :=
  let standing : Option Anchor := some { next := s.journal.anchorSerial, tail := s.journal.tail }
  match s.journal.inForce with
  | some .a => (chooseAnchor standing other).map Prod.fst == some .a
  | some .b => (chooseAnchor other standing).map Prod.fst == some .b
  | none => other.isNone

/-- Whether a write cut short at a word may leave the record it leaves. A torn configuration copy fails R91, so that the copy
in force is loaded (R96, R98). A torn zero anchor leaves the anchor in force as it was, and it has none beside it that takes
its place; from the second zero write on, when none is in force (R58), it fails R49, and so does the final anchor of FORMAT
(R62). Any other record may meet its check by chance (R47, R51). That the rules' words bound the freedom of R132 here is
log 28. -/
def State.mayTear (s : State) (op : Operation) (mask : Word) (cut : Nat) : Bool :=
  let left := readWords (tornWords s.mem op.start op.lanes mask op.writes cut) op.start op.writes.length
  match op.kind with
  | .saveConfig _ | .formatConfig _ => (judgeConfig left).isNone
  | .zeroAnchor _ =>
    s.anchorStands (judgeAnchor ((s.journal.format.map (fun job => job.old)).getD s.journal.live) left)
  | .formatAnchor => (judgeAnchor s.journal.live left).isNone
  | .hostRead | .queueWrite | .appendRead | .appendWrite | .rollbackRead | .restore | .commitAnchor _ | .abortAnchor _
  | .recoveryAnchor _ | .zeroSlot | .arming _ _ | .configRead _ | .anchorRead _ | .scanRead => true

/-- The words of a write at which it may be cut short, under a mixture. -/
def State.tearPoints (s : State) (op : Operation) (mask : Word) : List Nat :=
  (List.range op.writes.length).filter (s.mayTear op mask)

/-- The memory after a write is torn at a free one of its words with a free mixture (R132, log 3); where no cut may be, the
write ends at its first word, which holds its old value (log 28). -/
def State.tornMemory (s : State) (op : Operation) : List Host.Cell :=
  let mask := Config.tearMask s.freeCount
  let points := s.tearPoints op mask
  match points[Config.tearPoint s.freeCount % points.length]? with
  | some cut => tornWords s.mem op.start op.lanes mask op.writes cut
  | none => s.mem

/-- The operation in progress is cut short (R132): a read leaves the memory as it is, a write is torn. -/
def State.cutOperation (s : State) : State :=
  match s.port.op with
  | some op => if op.writes = [] then s else { s with mem := s.tornMemory op, freeCount := s.freeCount + 1 }
  | none => s

/-- Every block at its reset value; the hold flag is not changed during a reset (R134, R146), and the lines keep what the
outside drives. The host's answer lines are released, whatever they held (log 12). -/
def State.resetBlocks (s : State) (cause : ResetCause) : State :=
  { s with
    epoch := {}
    loggedSet := []
    journal := {}
    rollback := {}
    regions := {}
    host := {}
    port := {}
    control := { hold := s.control.hold, cause := cause }
    monitors := Vector.replicate 8 {}
    events := {}
    frame := {}
    lines := { s.lines with ready := false, error := false, hostData := 0 } }

/-- A reset begins: the operation in progress is cut short and every block takes its reset value (R123, R132, R134). -/
def State.beginReset (s : State) (cause : ResetCause) : State := s.cutOperation.resetBlocks cause

/-- A reset ends: the hold flag follows PFW (R133), the frame waits for a rise if chip select is low (R170), and a request
presented is taken as newly presented (R100). -/
def State.endReset (s : State) : State :=
  { s with
    control.hold := s.lines.pfw
    frame.phase := if s.lines.csLow then .waitRise else .idle }.classify

end Sys2Proof.Machine
end

