-- ==== Sys2Proof/Machine/Arbiter.lean ====
section
/-! DEFINITION. The Memory Port: the waiting requests, computed from the owners' states (R123, R124), the grant (R125 to
R127), the completion of an operation (R121) and QUIET (R129). -/

namespace Sys2Proof.Machine

/-- The requester group of an operation (R124). -/
def OpKind.group : OpKind → Group
  | .hostRead => .hr
  | .queueWrite | .appendRead | .appendWrite => .wp
  | .rollbackRead | .restore | .commitAnchor _ | .abortAnchor _ | .recoveryAnchor _ | .zeroAnchor _ | .formatConfig _
  | .zeroSlot | .formatAnchor | .saveConfig _ | .configRead _ | .anchorRead _ | .scanRead => .mt
  | .arming _ _ => .ma

/-- The operations exempt from the hold (R127): the commit anchor write, and a restore, whose slot read had begun before
the hold flag was set (a run enters RESTORE in no other way, R76). -/
def OpKind.exempt : OpKind → Bool
  | .commitAnchor _ | .restore => true
  | .hostRead | .queueWrite | .appendRead | .appendWrite | .rollbackRead | .abortAnchor _ | .recoveryAnchor _
  | .zeroAnchor _ | .formatConfig _ | .zeroSlot | .formatAnchor | .saveConfig _ | .arming _ _ | .configRead _
  | .anchorRead _ | .scanRead => false

/-! ## Waiting requests (R124) -/

/-- The request of group HR: the read in GRANT_WAIT (R115). -/
def State.hrWaiting (s : State) : Option OpKind :=
  if s.host.phase = .grantWait then some .hostRead else none

/-- The request of group WP: the next operation of the head entry (R111). The slot write of an append waits once its block
read has returned the pre-image (R44). -/
def State.wpWaiting (s : State) : Option OpKind :=
  match s.host.queue with
  | [] => none
  | head :: _ =>
    match head.progress with
    | .appendWaiting => some .appendRead
    | .appendInFlight => if s.journal.preimage.isSome then some .appendWrite else none
    | .writeWaiting => some .queueWrite
    | .writeInProgress => none

/-- The configuration write of a SAVE_CONFIG in progress (R95). -/
def State.saveWaiting (s : State) : Option OpKind :=
  if s.regions.saving then some (.saveConfig (copyNotInForce s.regions.inForce)) else none

/-- Whether the drain notice of R11 has been given: the epoch is CLOSING and the queue holds no entry tagged with its
serial. -/
def State.drained (s : State) : Bool :=
  s.epoch.state == .closing && !s.host.queue.any (fun e => e.taggedWith s.epoch.serial)

/-- The operation a FORMAT asks next: the copy not in force is zeroed first, the other second (R58 to R60). -/
def State.formatWaiting (s : State) (step : FormatStep) : Option OpKind :=
  match step with
  | .drain => none
  | .zeroFirst => some (.zeroAnchor (copyNotInForce s.journal.inForce))
  | .zeroSecond => some (.zeroAnchor (copyNotInForce s.journal.inForce).other)
  | .config => some (.formatConfig (copyNotInForce s.regions.inForce))
  | .slots _ => some .zeroSlot
  | .anchor => some .formatAnchor

/-- The operation start-up asks next (section 8.3): copy A is read first, then copy B. -/
def State.startWaiting (s : State) : Option OpKind :=
  match s.control.step with
  | .configRead => some (.configRead (if s.control.firstCopy.isSome then .b else .a))
  | .anchorRead => some (.anchorRead (if s.control.firstCopy.isSome then .b else .a))
  | .scan => some .scanRead
  | .anchorWrite => some (.recoveryAnchor (copyNotInForce s.journal.inForce))
  | .rollback | .done => none

/-- The one operation of the journal and start-up work in hand (R124). -/
def State.journalWaiting (s : State) : Option OpKind :=
  match s.rollback.phase with
  | .read => some .rollbackRead
  | .restore _ _ => some .restore
  | .close => some (.abortAnchor (copyNotInForce s.journal.inForce))
  | .idle | .paused =>
    if s.drained then some (.commitAnchor (copyNotInForce s.journal.inForce))
    else
      match s.journal.format with
      | some job => s.formatWaiting job.step
      | none => s.startWaiting

/-- The request of group MA granted first: the arming read of the ARMING cell with the lowest index (R126). -/
def State.maWaiting (s : State) : Option OpKind :=
  ((List.finRange 8).find? (fun i => s.monitors[i].state == .arming)).map (fun i => .arming i true)

/-- The journal or start-up request that may be granted under the hold (R127). -/
def State.exemptWaiting (s : State) : Option OpKind := s.journalWaiting.filter OpKind.exempt

/-- The device side's request: WP, then the SAVE_CONFIG write, then the journal or start-up work, then MA (R126, R154). A
run asks its next operation at every free port but while it is paused, so an arming read comes between two restores (R160)
where the hold flag has stopped the run between them (log 29, `State.clearGrant`). -/
def State.deviceWaiting (s : State) : Option OpKind :=
  ((s.wpWaiting.or s.saveWaiting).or s.journalWaiting).or s.maWaiting

/-- The request the free port grants: by alternation with the hold flag clear (R125), and under the hold only WP and exempt
MT (R127). -/
def State.nextGrant (s : State) : Option OpKind :=
  if s.control.hold then s.wpWaiting.or s.exemptWaiting
  else
    match s.port.alternation with
    | .device => s.hrWaiting.or s.deviceWaiting
    | .host => s.deviceWaiting.or s.hrWaiting

/-! ## Operations -/

/-- An operation that reads n words. -/
def readOp (kind : OpKind) (start : WordAddr) (n : Nat) : Operation :=
  { kind := kind, start := start, reads := n, writes := [], lanes := .both }

/-- An operation that writes words with both lanes (R121). -/
def writeOp (kind : OpKind) (start : WordAddr) (words : List Word) : Operation :=
  { kind := kind, start := start, reads := 0, writes := words, lanes := .both }

/-- The word write of a queue entry, with its lanes (R111). -/
def QueueEntry.writeOp (e : QueueEntry) : Operation :=
  { kind := .queueWrite, start := e.addr, reads := 0, writes := [e.data], lanes := e.lanes }

/-- The block read of an entry's append (R43). -/
def QueueEntry.appendReadOp (e : QueueEntry) : Operation :=
  readOp .appendRead (blockStart (blockOf e.addr)) Config.blockWords

/-- The record an entry's append writes, from the pre-image kept (R41). -/
def QueueEntry.record (e : QueueEntry) (preimage : List Word) : List Word :=
  recordWords (e.append.any (fun a => a.spill)) (e.tag.getD 0) ((e.append.map (fun a => a.sequence)).getD 0)
    (blockOf e.addr) preimage

/-- The slot an entry's append writes: (tail + sequence) mod slot count (R44). -/
def State.appendSlot (s : State) (e : QueueEntry) : Nat :=
  s.journal.live.ring s.journal.tail ((e.append.map (fun a => a.sequence)).getD 0)

/-- The slot write of an entry's append (R44). -/
def State.appendWriteOp (s : State) (e : QueueEntry) : Operation :=
  Sys2Proof.Machine.writeOp .appendWrite (s.journal.live.slotStart (s.appendSlot e))
    (e.record (s.journal.preimage.getD []))

/-- The head entry's operation; a queue without a head asks none. -/
def State.headOp (s : State) (kind : OpKind) (f : QueueEntry → Operation) : Operation :=
  match s.host.queue with
  | head :: _ => f head
  | [] => readOp kind 0 0

/-- The tail the commit and abort anchors carry: (tail + written) mod slot count (R52). -/
def State.closingTail (s : State) : Nat := s.journal.live.ring s.journal.tail s.epoch.written

/-- The tail the recovery anchor carries: (tail + n) mod slot count (R52); n is the scan index at the scan's end. -/
def State.recoveryTail (s : State) : Nat := s.journal.live.ring s.journal.tail s.control.scanIndex

/-- The configuration a write stores: the live values with the generation in force + 1 (R59, R90, R94). -/
def State.configToStore (s : State) : StoredConfig :=
  { generation := s.regions.generation + 1, location := s.journal.live, table := s.regions.live }

/-- The unit operation granted for a request, with the extent and data its owner gives (section 7.1). -/
def State.operationFor (s : State) : OpKind → Operation
  | .hostRead => readOp .hostRead ((s.lines.presented.map (fun r => r.addr)).getD 0) 1
  | .queueWrite => s.headOp .queueWrite QueueEntry.writeOp
  | .appendRead => s.headOp .appendRead QueueEntry.appendReadOp
  | .appendWrite => s.headOp .appendWrite s.appendWriteOp
  | .rollbackRead =>
    readOp .rollbackRead
      (s.journal.live.slotStart (s.journal.live.ring s.rollback.baseTail (s.rollback.remaining - 1))) Config.slotWords
  | .restore =>
    match s.rollback.phase with
    | .restore block words => writeOp .restore (blockStart block) words
    | .idle | .read | .paused | .close => readOp .restore 0 0
  | .commitAnchor c =>
    writeOp (.commitAnchor c) c.anchorStart (anchorWords (s.epoch.serial + 1) s.closingTail s.journal.live)
  | .abortAnchor c =>
    writeOp (.abortAnchor c) c.anchorStart (anchorWords (s.epoch.serial + 1) s.closingTail s.journal.live)
  | .recoveryAnchor c =>
    writeOp (.recoveryAnchor c) c.anchorStart
      (anchorWords (s.journal.anchorSerial + 1) s.recoveryTail s.journal.live)
  | .zeroAnchor c => writeOp (.zeroAnchor c) c.anchorStart zeroAnchorWords
  | .formatConfig c => writeOp (.formatConfig c) c.configStart (configWords s.configToStore)
  | .zeroSlot =>
    writeOp .zeroSlot
      (s.journal.live.slotStart
        (match s.journal.format with
        | some { old := _, step := .slots next } => next
        | _ => 0)) zeroSlotWords
  | .formatAnchor => writeOp .formatAnchor Copy.a.anchorStart (anchorWords 1 0 s.journal.live)
  | .saveConfig c => writeOp (.saveConfig c) c.configStart (configWords s.configToStore)
  | .arming i wanted => readOp (.arming i wanted) s.monitors[i].addr 1
  | .configRead c => readOp (.configRead c) c.configStart Config.configWords
  | .anchorRead c => readOp (.anchorRead c) c.anchorStart Config.anchorWords
  | .scanRead =>
    readOp .scanRead (s.journal.live.slotStart (s.journal.live.ring s.journal.tail s.control.scanIndex))
      Config.slotWords

/-! ## Grant and completion -/

/-- The head entry with a new progress (R111). -/
def State.headProgress (s : State) (p : Progress) : State :=
  match s.host.queue with
  | head :: rest => { s with host.queue := { head with progress := p } :: rest }
  | [] => s

/-- The side of a group (R123, R125). -/
def Group.side : Group → Side
  | .hr => .host
  | .wp | .mt | .ma => .device

/-- What the owner does when its request is granted: a read is PERFORMING (R117), the head's progress moves (R111), and
the second zero anchor write leaves no anchor in force (R58). -/
def State.ownerGranted (s : State) : OpKind → State
  | .hostRead => { s with host.phase := .performing }
  | .appendRead => s.headProgress .appendInFlight
  | .queueWrite => s.headProgress .writeInProgress
  | .zeroAnchor _ =>
    match s.journal.format with
    | some { old := _, step := .zeroSecond } => { s with journal := { s.journal with inForce := none, anchorSerial := 0 } }
    | _ => s
  | .appendWrite | .rollbackRead | .restore | .commitAnchor _ | .abortAnchor _ | .recoveryAnchor _ | .formatConfig _
  | .zeroSlot | .formatAnchor | .saveConfig _ | .arming _ _ | .configRead _ | .anchorRead _ | .scanRead => s

/-- A request is granted: its operation is in progress and the alternation state names its side (R121, R123). -/
def State.grant (s : State) (k : OpKind) : State :=
  { s with port := { op := some (s.operationFor k), alternation := k.group.side } }.ownerGranted k

/-- An operation completes: the port is free, and the memory holds the words written (R121, log 19). -/
def State.afterOp (s : State) (op : Operation) : State :=
  { s with port.op := none, mem := writeWords s.mem op.start op.lanes op.writes }

/-- The words an operation hands back (R121). -/
def State.wordsRead (s : State) (op : Operation) : List Word := readWords s.mem op.start op.reads

/-! ## QUIET -/

/-- QUIET (R129); deasserted while a reset lasts (R123). -/
def State.quiet (s : State) : Bool :=
  s.running && s.control.hold && s.port.op.isNone && s.host.queue.isEmpty && s.epoch.state != .closing &&
    s.exemptWaiting.isNone

end Sys2Proof.Machine
end

