-- ==== Sys2Proof/Machine/FormatWork.lean ====
section
/-! DEFINITION. The completions of FORMAT's operations and of SAVE_CONFIG's: ZERO_ANCHOR_WRITE_COMPLETE,
FORMAT_CONFIG_WRITE_COMPLETE, ZERO_SLOT_WRITE_COMPLETE, FORMAT_ANCHOR_WRITE_COMPLETE, SAVE_CONFIG_WRITE_COMPLETE
(chapters 3 and 5). -/

namespace Sys2Proof.Machine

/-- FORMAT goes to a step. -/
def State.formatStep (s : State) (step : FormatStep) : State :=
  { s with journal.format := s.journal.format.map (fun job => { job with step := step }) }

/-- The step that follows the completion of an operation of FORMAT: the second zero anchor after the first, the
configuration write after the second (R58, R59), each slot after the one before it, and the final anchor after the last
(R60). -/
def nextFormatStep (slots : Nat) : FormatStep → FormatStep
  | .drain => .zeroFirst
  | .zeroFirst => .zeroSecond
  | .zeroSecond => .config
  | .config => .slots 0
  | .slots k => if k + 1 < slots then .slots (k + 1) else .anchor
  | .anchor => .anchor

/-- The present step of FORMAT gives way to the next. -/
def State.advanceFormat (s : State) : State :=
  match s.journal.format with
  | some job => s.formatStep (nextFormatStep s.slots job.step)
  | none => s

/-- ZERO_ANCHOR_WRITE_COMPLETE (R58). -/
def execZeroAnchorWriteComplete (s : State) : Host.Outcome State Fault Refusal :=
  .next
    (match s.port.op with
    | some op =>
      match op.kind with
      | .zeroAnchor _ => (s.afterOp op).advanceFormat
      | _ => s
    | none => s)

/-- The copy just written becomes the configuration in force, and the generation in force rises by 1 (R92, R98). -/
def State.installConfig (s : State) (copy : Copy) : State :=
  { s with regions := { s.regions with inForce := some copy, generation := s.regions.generation + 1 } }

/-- FORMAT_CONFIG_WRITE_COMPLETE: the copy is in force and CONFIG_SAVED is not set (R59). -/
def execFormatConfigWriteComplete (s : State) : Host.Outcome State Fault Refusal :=
  .next
    (match s.port.op with
    | some op =>
      match op.kind with
      | .formatConfig c => ((s.afterOp op).installConfig c).advanceFormat
      | _ => s
    | none => s)

/-- ZERO_SLOT_WRITE_COMPLETE (R60). -/
def execZeroSlotWriteComplete (s : State) : Host.Outcome State Fault Refusal :=
  .next
    (match s.port.op with
    | some op => if op.kind = .zeroSlot then (s.afterOp op).advanceFormat else s
    | none => s)

/-- FORMAT is finished: anchor A is in force with next serial 1 and tail 0, the journal is FORMATTED, the epoch's serial is
1 (R60, R2). -/
def State.finishFormat (s : State) : State :=
  { s with
    epoch.serial := 1
    journal :=
      { s.journal with inForce := some .a, anchorSerial := 1, tail := 0, status := .formatted, format := none } }

/-- FORMAT_ANCHOR_WRITE_COMPLETE (R60). -/
def execFormatAnchorWriteComplete (s : State) : Host.Outcome State Fault Refusal :=
  .next
    (match s.port.op with
    | some op => if op.kind = .formatAnchor then (s.afterOp op).finishFormat.raise .formatDone else s
    | none => s)

/-- SAVE_CONFIG_WRITE_COMPLETE: the copy is in force, the save is no longer in progress and CONFIG_SAVED is set (R95). -/
def execSaveConfigWriteComplete (s : State) : Host.Outcome State Fault Refusal :=
  .next
    (match s.port.op with
    | some op =>
      match op.kind with
      | .saveConfig c => { (s.afterOp op).installConfig c with regions.saving := false }.raise .configSaved
      | _ => s
    | none => s)

end Sys2Proof.Machine
end

