-- ==== Sys2Proof/Machine/Decision.lean ====
section
/-! DEFINITION. The decision point of a management frame (R172): the two gates, the outcome fixed in the frame record, and
a row of the table as a frame up to its decision point (log 4). -/

namespace Sys2Proof.Machine

/-- What a decision fixes: the status, the reply bytes, and the part after the command. -/
structure Decision where
  status : Status
  reply : List Byte
  after : State

/-- A refused command carries no reply and changes no state of its owner (R174). -/
def refusedWith (status : Status) (s : State) : Decision := { status := status, reply := [], after := s }

/-- The device-state gate: the commands it passes in STARTING and RECOVERING (R175). -/
def startGate : Command → Bool
  | .status | .readEvents | .clearEvents | .setEventEnables | .readFault | .clearFault | .getRegion | .getMonitor
  | .readSet | .restart => true
  | .begin | .commit | .abort | .renew | .setJournal | .format | .setRegion | .setDefaults | .saveConfig | .armMonitor
  | .disarmMonitor => false

/-- The hold gate: the commands it passes while the hold flag is set (R147). -/
def holdGate : Command → Bool
  | .begin | .commit | .abort | .format | .saveConfig | .armMonitor => false
  | .status | .readEvents | .clearEvents | .setEventEnables | .readFault | .clearFault | .getRegion | .getMonitor
  | .readSet | .restart | .renew | .setJournal | .setRegion | .setDefaults | .disarmMonitor => true

/-- Checks 3 and 4 of R172, and then the owner's own rule. -/
def State.gated (s : State) (c : Command) (own : State → Decision) : Decision :=
  if s.control.device ≠ .ready ∧ startGate c = false then refusedWith .state s
  else if s.control.hold ∧ holdGate c = false then refusedWith .state s
  else own s

/-- The frame record at the decision point, with the outcome and the reply fixed (R170, R172). -/
def decidedFrame (code : Byte) (args : List Byte) (status : Status) (reply : List Byte) : Frame :=
  { phase := .turnaround, bits := 0, code := code, count := byteOf args.length, args := args, outcome := some status
    reply := reply, index := 0 }

/-- A decision is fixed in the frame record; chip select is low, as in every frame (R170). -/
def Decision.settle (d : Decision) (code : Byte) (args : List Byte) : State :=
  { d.after with frame := decidedFrame code args d.status d.reply, lines.csLow := true }

/-- Whether a frame that carries this code and these arguments can reach its decision point from the frame record: no
frame yet, or one whose bytes so far are its first bytes (log 4). A frame already decided carries no second command, and
in WAIT_RISE every edge is ignored (R170, R171). -/
def Frame.admits (f : Frame) (code : Byte) (args : List Byte) : Bool :=
  match f.phase with
  | .idle | .code => decide (args.length ≤ 255)
  | .count => f.code == code && decide (args.length ≤ 255)
  | .arguments =>
    f.code == code && f.count.toNat == args.length && f.args.isPrefixOf args && decide (f.args.length < args.length)
  | .waitRise | .turnaround | .status | .replyCount | .reply | .trailing => false

/-- Whether a row of the table that is a frame can be decided now: no reset lasts, and the frame record admits it. -/
def State.canDecide (s : State) (code : Byte) (args : List Byte) : Bool := s.running && s.frame.admits code args

/-- A management command as a row of the table: its frame reaches its decision point (log 4). -/
def State.command (s : State) (c : Command) (args : List Byte) (own : State → Decision) : State :=
  if s.canDecide c.code args then (s.gated c own).settle c.code args else s

/-- The byte the frame record drives on data out, by phase (R171); none when data out is released (R170). -/
def Frame.driven (f : Frame) : Option Byte :=
  match f.phase with
  | .idle => none
  | .status => some ((f.outcome.map Status.code).getD 0)
  | .replyCount => some (byteOf f.reply.length)
  | .reply => some (f.reply.getD f.index 0)
  | .waitRise | .code | .count | .arguments | .turnaround | .trailing => some 0

/-- The byte the part drives on the management data out line; released during a reset (R170). -/
def State.dataOut (s : State) : Option Byte := if s.running then s.frame.driven else none

/-- The bit the part drives on the management data out line: the bit of its byte that follows those already clocked, most
significant first; none when the line is released (R170, log 16). -/
def State.dataOutBit (s : State) : Option Bool := s.dataOut.map (fun byte => byte.getLsbD (7 - s.frame.bits))

end Sys2Proof.Machine
end

