-- ==== Sys2Proof/Machine/EpochCommands.lean ====
section
/-! DEFINITION. The commands of the Epoch Controller: BEGIN, COMMIT, ABORT, RENEW (chapter 1), and READ_SET (section
2.7). -/

namespace Sys2Proof.Machine

/-- BEGIN's own checks and effect (R3). -/
def takeBegin (s : State) : Decision :=
  if s.epoch.state ≠ .idle then refusedWith .state s
  else if s.journal.format.isSome then refusedWith .busy s
  else if s.journal.status ≠ .formatted then refusedWith .notFormatted s
  else if s.epoch.serial = Config.maxSerial then refusedWith .exhausted s
  else
    { status := .ok
      reply := bytes32 s.epoch.serial
      after := { s with epoch := { state := .opened, serial := s.epoch.serial, ageRunning := s.timed } } }

/-- BEGIN (R3). -/
def execBegin (s : State) : Host.Outcome State Fault Refusal := .next (s.command .begin [] takeBegin)

/-- COMMIT's own checks and effect (R10). -/
def takeCommit (s : State) : Decision :=
  match s.epoch.state with
  | .opened =>
    { status := .accepted, reply := []
      after := { s with epoch := { s.epoch with state := .closing, ageRunning := false } } }
  | .doomed => refusedWith .doomed s
  | .idle | .closing | .rollingBack => refusedWith .state s

/-- COMMIT (R10). The commit anchor write is asked once the queue holds no entry of the epoch (R11). -/
def execCommit (s : State) : Host.Outcome State Fault Refusal := .next (s.command .commit [] takeCommit)

/-- ABORT's own checks and effect (R14). -/
def takeAbort (s : State) : Decision :=
  match s.epoch.state with
  | .opened | .doomed => { status := .accepted, reply := [], after := s.abortEpoch }
  | .idle | .closing | .rollingBack => refusedWith .state s

/-- ABORT (R14, R15, R113). -/
def execAbort (s : State) : Host.Outcome State Fault Refusal := .next (s.command .abort [] takeAbort)

/-- RENEW's own checks and effect (R17). -/
def takeRenew (s : State) : Decision :=
  match s.epoch.state with
  | .opened | .doomed =>
    { status := .ok, reply := []
      after := { s with epoch := { s.epoch with ageElapsed := 0, ageRunning := s.timed } } }
  | .idle | .closing | .rollingBack => refusedWith .state s

/-- RENEW (R17). -/
def execRenew (s : State) : Host.Outcome State Fault Refusal := .next (s.command .renew [] takeRenew)

/-- An entry of the READ_SET reply: block, state, sequence (chapter 12.3). -/
def SetEntry.bytes (e : SetEntry) : List Byte :=
  bytes16 (wordOf e.block) ++ [e.state.code] ++ bytes16 (wordOf e.sequence)

/-- The entries a READ_SET returns: at most 8, from the start index of the listing upward (R36). -/
def State.listed (s : State) (start : Nat) : List SetEntry := (s.loggedSet.drop start).take 8

/-- The 50 bytes of the READ_SET reply; the positions beyond the entry count are 0 (R36, R180). -/
def readSetReply (s : State) (start : Byte) : List Byte :=
  [s.epoch.state.code] ++ bytes32 s.epoch.serial ++ [byteOf s.loggedSet.length] ++ bytes16 (wordOf s.epoch.spills) ++
    [start, byteOf (s.listed start.toNat).length] ++ (s.listed start.toNat).flatMap SetEntry.bytes ++
    List.replicate (5 * (8 - (s.listed start.toNat).length)) 0

/-- READ_SET's own check and reply (R36). -/
def takeReadSet (start : Byte) (s : State) : Decision :=
  if 65 ≤ start.toNat then refusedWith .badArgument s
  else { status := .ok, reply := readSetReply s start, after := s }

/-- READ_SET (R36). -/
def execReadSet (start : Byte) (s : State) : Host.Outcome State Fault Refusal :=
  .next (s.command .readSet [start] (takeReadSet start))

end Sys2Proof.Machine
end

