-- ==== Sys2Proof/Machine/EventCommands.lean ====
section
/-! DEFINITION. The commands of the Event Unit: READ_EVENTS, CLEAR_EVENTS, SET_EVENT_ENABLES, READ_FAULT, CLEAR_FAULT
(chapter 10). -/

namespace Sys2Proof.Machine

/-- READ_EVENTS's reply: the flags and the enables (R165). -/
def takeReadEvents (s : State) : Decision :=
  { status := .ok, reply := flagBytes s.events.flags ++ flagBytes s.events.enables, after := s }

/-- READ_EVENTS (R165). -/
def execReadEvents (s : State) : Host.Outcome State Fault Refusal := .next (s.command .readEvents [] takeReadEvents)

/-- CLEAR_EVENTS's own check and effect (R163): the reply shows the flags before the clear. -/
def takeClearEvents (mask : BitVec 24) (s : State) : Decision :=
  if maskInRange mask then
    { status := .ok, reply := flagBytes s.events.flags
      after := { s with events.flags := s.events.flags &&& ~~~(mask.setWidth 22) } }
  else refusedWith .badArgument s

/-- CLEAR_EVENTS (R163). -/
def execClearEvents (mask : BitVec 24) (s : State) : Host.Outcome State Fault Refusal :=
  .next (s.command .clearEvents (bytes24 mask) (takeClearEvents mask))

/-- SET_EVENT_ENABLES's own check and effect (R164): the reply shows the enables now, then the flags. -/
def takeSetEventEnables (mask : BitVec 24) (s : State) : Decision :=
  if maskInRange mask then
    { status := .ok, reply := flagBytes (mask.setWidth 22) ++ flagBytes s.events.flags
      after := { s with events.enables := mask.setWidth 22 } }
  else refusedWith .badArgument s

/-- SET_EVENT_ENABLES (R164). -/
def execSetEventEnables (mask : BitVec 24) (s : State) : Host.Outcome State Fault Refusal :=
  .next (s.command .setEventEnables (bytes24 mask) (takeSetEventEnables mask))

/-- The fields of a fault capture record on the port; an empty record reads as R167 states. -/
def faultBytes : Option FaultRecord → List Byte
  | some f =>
    [1, f.kind.code] ++ addrBytes f.addr ++ [lanesCode f.lanes, f.reason.code] ++ bytes32 f.serial
  | none => [0, AccessKind.code .read] ++ addrBytes 0 ++ [lanesCode .neither, RefusalReason.code .deviceArea] ++ bytes32 0

/-- The 12 bytes of the READ_FAULT and CLEAR_FAULT replies (chapter 12.3). -/
def faultReply (s : State) : List Byte := faultBytes s.events.fault ++ [byteOf s.events.refusals]

/-- READ_FAULT's reply (R168). -/
def takeReadFault (s : State) : Decision := { status := .ok, reply := faultReply s, after := s }

/-- READ_FAULT (R168). -/
def execReadFault (s : State) : Host.Outcome State Fault Refusal := .next (s.command .readFault [] takeReadFault)

/-- CLEAR_FAULT's reply and effect (R169). -/
def takeClearFault (s : State) : Decision :=
  { status := .ok, reply := faultReply s
    after := { s with events := { s.events with fault := none, refusals := 0 } } }

/-- CLEAR_FAULT (R169). -/
def execClearFault (s : State) : Host.Outcome State Fault Refusal := .next (s.command .clearFault [] takeClearFault)

end Sys2Proof.Machine
end

