-- ==== Sys2Proof/Machine/MonitorCommands.lean ====
section
/-! DEFINITION. The commands of the Condition Monitors: ARM_MONITOR, DISARM_MONITOR, GET_MONITOR (chapter 9). -/

namespace Sys2Proof.Machine

/-- Whether a host lookup of a word would answer DEVICE_AREA or JOURNAL_AREA (R153 check 3). -/
def State.unwatchable (s : State) (addr : WordAddr) : Bool :=
  decide (blockOf addr < Config.firstFreeBlock) || s.inJournalArea (blockOf addr)

/-- The cell armed anew: the fields given, count 0, last source HOST, state ARMING; the shadow stays until the arming read
completes (R153, R161). -/
def Cell.arm (c : Cell) (addr : WordAddr) (mask compare : Word) (trigger : Trigger) : Cell :=
  { state := .arming, addr := addr, mask := mask, compare := compare, trigger := trigger, shadow := c.shadow, count := 0
    lastSource := .host }

/-- ARM_MONITOR's own checks and effect (R153). -/
def takeArmMonitor (index : Byte) (addr : BitVec 24) (mask compare : Word) (trigger : Byte) (s : State) : Decision :=
  if h : index.toNat < 8 then
    if 1048576 ≤ addr.toNat then refusedWith .badArgument s
    else
      match Trigger.ofCode trigger.toNat with
      | none => refusedWith .badArgument s
      | some t =>
        if s.monitors[index.toNat].state = .arming then refusedWith .busy s
        else if s.unwatchable (addr.setWidth 20) then refusedWith .badArgument s
        else
          { status := .accepted, reply := []
            after :=
              { s with
                monitors :=
                  s.monitors.set index.toNat (s.monitors[index.toNat].arm (addr.setWidth 20) mask compare t) } }
  else refusedWith .badArgument s

/-- ARM_MONITOR (R153). -/
def execArmMonitor (index : Byte) (addr : BitVec 24) (mask compare : Word) (trigger : Byte) (s : State) :
    Host.Outcome State Fault Refusal :=
  .next
    (s.command .armMonitor ([index] ++ bytes24 addr ++ bytes16 mask ++ bytes16 compare ++ [trigger])
      (takeArmMonitor index addr mask compare trigger))

/-- DISARM_MONITOR's own check and effect (R155). -/
def takeDisarmMonitor (index : Byte) (s : State) : Decision :=
  if h : index.toNat < 8 then { status := .ok, reply := [], after := s.disarm ⟨index.toNat, h⟩ }
  else refusedWith .badArgument s

/-- DISARM_MONITOR (R155). -/
def execDisarmMonitor (index : Byte) (s : State) : Host.Outcome State Fault Refusal :=
  .next (s.command .disarmMonitor [index] (takeDisarmMonitor index))

/-- The 14 bytes of the GET_MONITOR reply (R161, chapter 12.3). -/
def getMonitorReply (index : Byte) (c : Cell) : List Byte :=
  [index, c.state.code] ++ addrBytes c.addr ++ bytes16 c.mask ++ bytes16 c.compare ++ [c.trigger.code] ++
    bytes16 c.shadow ++ [byteOf c.count, c.lastSource.code]

/-- GET_MONITOR's own check and reply (R161). -/
def takeGetMonitor (index : Byte) (s : State) : Decision :=
  if h : index.toNat < 8 then
    { status := .ok, reply := getMonitorReply index s.monitors[index.toNat], after := s }
  else refusedWith .badArgument s

/-- GET_MONITOR (R161). -/
def execGetMonitor (index : Byte) (s : State) : Host.Outcome State Fault Refusal :=
  .next (s.command .getMonitor [index] (takeGetMonitor index))

end Sys2Proof.Machine
end

