-- ==== Sys2Proof/Machine/JournalCommands.lean ====
section
/-! DEFINITION. The commands of the Journal Engine: SET_JOURNAL and FORMAT (sections 3.6 and 3.7). -/

namespace Sys2Proof.Machine

/-- Whether a SAVE_CONFIG or a FORMAT is in progress (R54, R55, R83, R86, R94). -/
def State.storing (s : State) : Bool := s.regions.saving || s.journal.format.isSome

/-- Whether a location's area overlaps a valid descriptor of a table (R54). -/
def RegionTable.overlapsArea (t : RegionTable) (l : Location) : Bool := t.descs.toList.any (fun d => d.overlapsArea l)

/-- Whether a cell in ARMING, MATCH or MISMATCH watches a word of a location's area (R54). -/
def State.watchedIn (s : State) (l : Location) : Bool :=
  s.monitors.toList.any (fun c => c.state != .disarmed && l.covers (blockOf c.addr))

/-- SET_JOURNAL's own checks and effect (R54). -/
def takeSetJournal (base slots : Word) (s : State) : Decision :=
  let l : Location := { base := base, slots := slots }
  if s.storing then refusedWith .busy s
  else if slots = 0 ∨ Config.maxSlots < slots.toNat ∨ Config.lastBlock < l.last then refusedWith .badArgument s
  else if base.toNat < Config.firstFreeBlock then refusedWith .conflict s
  else if s.regions.live.overlapsArea l ∨ s.regions.staged.any (fun t => t.overlapsArea l) then
    refusedWith .conflict s
  else if s.watchedIn l then refusedWith .conflict s
  else
    { status := .ok
      reply := bytes16 s.journal.live.base ++ bytes16 s.journal.live.slots ++ bytes16 base ++ bytes16 slots
      after := { s with journal.staged := some l } }

/-- SET_JOURNAL (R54). -/
def execSetJournal (base slots : Word) (s : State) : Host.Outcome State Fault Refusal :=
  .next (s.command .setJournal (bytes16 base ++ bytes16 slots) (takeSetJournal base slots))

/-- A FORMAT begins: FORMATTING, a read in GRANT_WAIT classified afresh against both areas, and the drain step, which
ends at once when the queue is empty (R55, R56, R117). -/
def State.startFormat (s : State) : State :=
  let started : State :=
    { s with
      journal := { s.journal with status := .formatting, format := some { old := s.journal.live, step := .drain } } }
  started.reclassifyGrantWait.drainNotice

/-- FORMAT's own checks and effect (R55). -/
def takeFormat (s : State) : Decision :=
  if s.epoch.state ≠ .idle then refusedWith .state s
  else if s.storing then refusedWith .busy s
  else if s.journal.staged = none ∧ s.journal.live.slots = 0 then refusedWith .state s
  else if s.regions.generation = Config.maxSerial then refusedWith .exhausted s
  else { status := .accepted, reply := [], after := s.startFormat }

/-- FORMAT (R55 to R57). -/
def execFormat (s : State) : Host.Outcome State Fault Refusal := .next (s.command .format [] takeFormat)

end Sys2Proof.Machine
end

