-- ==== Sys2Proof/Machine/RegionCommands.lean ====
section
/-! DEFINITION. The commands of the Region Table: SET_REGION, GET_REGION, SET_DEFAULTS, SAVE_CONFIG (chapter 5). -/

namespace Sys2Proof.Machine

/-- The table an edit enters: the live one in IDLE, else the staged one, which is first a copy of the live one (R85). -/
def State.editedTable (s : State) : RegionTable :=
  if s.epoch.state = .idle then s.regions.live else s.regions.staged.getD s.regions.live

/-- The edited table takes its place: live in IDLE, staged otherwise (R85, R86). -/
def State.storeTable (s : State) (t : RegionTable) : State :=
  if s.epoch.state = .idle then { s with regions.live := t } else { s with regions.staged := some t }

/-- The reply byte of an edit: 0 applied, 1 staged (chapter 12.2). -/
def State.editReply (s : State) : List Byte := [boolCode (s.epoch.state != .idle)]

/-- Whether a valid descriptor offered at an index conflicts (R84). -/
def State.conflicts (s : State) (i : Fin 16) (d : Descriptor) : Bool :=
  decide (d.first.toNat < Config.firstFreeBlock) || d.overlapsArea s.journal.live ||
    s.journal.staged.any (fun l => d.overlapsArea l) ||
    (List.finRange 16).any (fun j => j != i && d.overlaps s.editedTable.descs[j])

/-- A descriptor with valid yes from the codes of the port (R83 check 3): listed codes, and the first block not above the
last. -/
def offeredDescriptor (first last : Word) (cls width policy : Byte) : Option Descriptor :=
  match RegionClass.ofCode cls.toNat, Width.ofCode width.toNat, OutsidePolicy.ofCode policy.toNat with
  | some c, some w, some p =>
    if first.toNat ≤ last.toNat then
      some { valid := true, first := first, last := last, cls := c, width := w, policy := p }
    else none
  | _, _, _ => none

/-- The descriptor is written at its index of the table the edit enters (R83, R85). -/
def State.storeDescriptor (s : State) (i : Fin 16) (d : Descriptor) : Decision :=
  { status := .ok, reply := s.editReply
    after := s.storeTable { s.editedTable with descs := s.editedTable.descs.set i d } }

/-- SET_REGION's own checks and effect (R83). With valid no the descriptor stored has fixed fields, whatever the other
arguments carry. -/
def takeSetRegion (index valid : Byte) (first last : Word) (cls width policy : Byte) (s : State) : Decision :=
  if s.storing then refusedWith .busy s
  else if h : index.toNat < 16 then
    match validOfCode valid.toNat with
    | none => refusedWith .badArgument s
    | some false => s.storeDescriptor ⟨index.toNat, h⟩ {}
    | some true =>
      match offeredDescriptor first last cls width policy with
      | none => refusedWith .badArgument s
      | some d =>
        if s.conflicts ⟨index.toNat, h⟩ d then refusedWith .conflict s else s.storeDescriptor ⟨index.toNat, h⟩ d
  else refusedWith .badArgument s

/-- SET_REGION (R83 to R85). -/
def execSetRegion (index valid : Byte) (first last : Word) (cls width policy : Byte) (s : State) :
    Host.Outcome State Fault Refusal :=
  .next
    (s.command .setRegion ([index, valid] ++ bytes16 first ++ bytes16 last ++ [cls, width, policy])
      (takeSetRegion index valid first last cls width policy))

/-- The 26 bytes of the GET_REGION reply; the staged fields equal the live ones while the flag is clear (R87, R89). -/
def getRegionReply (s : State) (index : Byte) (i : Fin 16) : List Byte :=
  [index] ++ s.regions.live.descs[i].bytes ++ [boolCode s.regions.staged.isSome] ++
    (s.regions.staged.getD s.regions.live).descs[i].bytes ++ s.regions.live.defaults.bytes ++
    (s.regions.staged.getD s.regions.live).defaults.bytes

/-- GET_REGION's own check and reply (R89). -/
def takeGetRegion (index : Byte) (s : State) : Decision :=
  if h : index.toNat < 16 then { status := .ok, reply := getRegionReply s index ⟨index.toNat, h⟩, after := s }
  else refusedWith .badArgument s

/-- GET_REGION (R89). -/
def execGetRegion (index : Byte) (s : State) : Host.Outcome State Fault Refusal :=
  .next (s.command .getRegion [index] (takeGetRegion index))

/-- SET_DEFAULTS's own checks and effect (R86); every 16-bit age limit is in range. -/
def takeSetDefaults (cls : Byte) (ageLimit : Word) (policy : Byte) (s : State) : Decision :=
  if s.storing then refusedWith .busy s
  else
    match DefaultClass.ofCode cls.toNat, AgePolicy.ofCode policy.toNat with
    | some c, some p =>
      { status := .ok, reply := s.editReply
        after := s.storeTable { s.editedTable with defaults := { cls := c, ageLimit := ageLimit, agePolicy := p } } }
    | _, _ => refusedWith .badArgument s

/-- SET_DEFAULTS (R86). -/
def execSetDefaults (cls : Byte) (ageLimit : Word) (policy : Byte) (s : State) : Host.Outcome State Fault Refusal :=
  .next (s.command .setDefaults ([cls] ++ bytes16 ageLimit ++ [policy]) (takeSetDefaults cls ageLimit policy))

/-- SAVE_CONFIG's own checks and effect (R94): the reply names the copy that will be written and its generation. -/
def takeSaveConfig (s : State) : Decision :=
  if s.storing then refusedWith .busy s
  else if s.regions.staged.isSome then refusedWith .state s
  else if s.regions.generation = Config.maxSerial then refusedWith .exhausted s
  else
    { status := .accepted
      reply := [(copyNotInForce s.regions.inForce).code] ++ bytes32 (s.regions.generation + 1)
      after := { s with regions.saving := true } }

/-- SAVE_CONFIG (R94, R95). -/
def execSaveConfig (s : State) : Host.Outcome State Fault Refusal := .next (s.command .saveConfig [] takeSaveConfig)

end Sys2Proof.Machine
end

