-- ==== Sys2Proof/Machine/Frames.lean ====
section
/-! DEFINITION. The Management Port: STATUS and RESTART, frames of any code and length, the bytes of a frame, and chip
select (chapter 11). -/

namespace Sys2Proof.Machine

/-- The 34 bytes of the STATUS reply (R176, chapter 12.3). -/
def statusReply (s : State) : List Byte :=
  [s.control.device.code, boolCode s.control.hold, s.journal.status.code, s.epoch.state.code] ++
    bytes32 s.epoch.serial ++ bytes16 (wordOf s.epoch.reserved) ++ bytes16 (wordOf s.epoch.written) ++
    bytes16 (wordOf s.epoch.spills) ++ bytes16 s.epoch.ageElapsed ++
    [byteOf s.loggedSet.length, byteOf s.host.queue.length, boolCode s.regions.staged.isSome, s.control.cause.code] ++
    bytes16 (wordOf s.control.lastN) ++ bytes16 (wordOf s.control.lastDamage) ++
    bytes16 (wordOf s.rollback.lastDamage) ++ bytes32 s.journal.anchorSerial ++ bytes32 s.regions.generation

/-- STATUS's reply; it changes nothing (R176). -/
def takeStatus (s : State) : Decision := { status := .ok, reply := statusReply s, after := s }

/-- STATUS (R176). -/
def execStatus (s : State) : Host.Outcome State Fault Refusal := .next (s.command .status [] takeStatus)

/-- RESTART's effect: restart pending; the reset follows at the frame's end (R135). -/
def takeRestart (s : State) : Decision :=
  { status := .ok, reply := [], after := { s with control.restartPending := true } }

/-- RESTART (R135). -/
def execRestart (s : State) : Host.Outcome State Fault Refusal := .next (s.command .restart [] takeRestart)

/-- The owner's rule for a decoded frame (section 11.4); a row that is no command of the port reaches no owner. -/
def ownerRule : Instr → State → Decision
  | .status => takeStatus
  | .begin => takeBegin
  | .commit => takeCommit
  | .abort => takeAbort
  | .renew => takeRenew
  | .readSet start => takeReadSet start
  | .setJournal base slots => takeSetJournal base slots
  | .format => takeFormat
  | .setRegion index valid first last cls width policy => takeSetRegion index valid first last cls width policy
  | .getRegion index => takeGetRegion index
  | .setDefaults cls ageLimit policy => takeSetDefaults cls ageLimit policy
  | .saveConfig => takeSaveConfig
  | .armMonitor index addr mask compare trigger => takeArmMonitor index addr mask compare trigger
  | .disarmMonitor index => takeDisarmMonitor index
  | .getMonitor index => takeGetMonitor index
  | .readEvents => takeReadEvents
  | .clearEvents mask => takeClearEvents mask
  | .setEventEnables mask => takeSetEventEnables mask
  | .readFault => takeReadFault
  | .clearFault => takeClearFault
  | .restart => takeRestart
  | .badCommandFrame _ _ | .chipSelectFall | .chipSelectRise | .hostWrite _ _ _ | .hostRead _ _ | .arbiterGrant
  | .hostReadComplete | .queueWordWriteComplete | .appendBlockReadComplete | .appendSlotWriteComplete
  | .rollbackSlotReadComplete | .restoreWriteComplete | .commitAnchorWriteComplete | .abortAnchorWriteComplete
  | .zeroAnchorWriteComplete | .formatConfigWriteComplete | .zeroSlotWriteComplete | .formatAnchorWriteComplete
  | .saveConfigWriteComplete | .armingReadComplete | .configReadComplete | .anchorReadComplete | .scanSlotReadComplete
  | .recoveryAnchorWriteComplete | .ageTick | .ageExpiry | .pfwAssert | .pfwDeassert | .powerOn | .powerLoss
  | .powerResetEnd | .rstnAssert | .rstnDeassert | .managementByteComplete _ => refusedWith .badCommand

/-- The decision point of a frame with any code and any arguments (R172): BAD_COMMAND for a code that is no command code,
BAD_LENGTH for a wrong count, then the gates and the owner's rule. -/
def decideFrame (code : Byte) (args : List Byte) (s : State) : Decision :=
  match Command.ofCode code with
  | none => refusedWith .badCommand s
  | some c =>
    if args.length = c.argCount then
      match decodeArgs c args with
      | some i => s.gated c (ownerRule i)
      | none => refusedWith .badLength s
    else refusedWith .badLength s

/-- BAD_COMMAND_FRAME: a frame whose code is no command code is decided (R172). A term that is not well-formed is decided
as the frame it spells. -/
def execBadCommandFrame (code : Byte) (args : List Byte) (s : State) : Host.Outcome State Fault Refusal :=
  .next (if s.canDecide code args then (decideFrame code args s).settle code args else s)

/-- A frame record past its decision point after one more byte (R171). -/
def Frame.nextReplyByte (f : Frame) : Frame :=
  match f.phase with
  | .turnaround => { f with phase := .status }
  | .status => { f with phase := .replyCount }
  | .replyCount => { f with phase := if f.reply = [] then .trailing else .reply }
  | .reply => { f with phase := if f.reply.length ≤ f.index + 1 then .trailing else .reply, index := f.index + 1 }
  | .idle | .waitRise | .code | .count | .arguments | .trailing => f

/-- A byte of the management frame completes (R171): the decision point stands at the count byte when N is 0, else at the
Nth argument byte (R172). The bit count returns to 0 with every byte; outside a frame the clock is ignored (R170). -/
def State.frameByte (s : State) (byte : Byte) : State :=
  match s.frame.phase with
  | .idle | .waitRise => s
  | .code => { s with frame := { s.frame with code := byte, phase := .count, bits := 0 } }
  | .count =>
    if byte = 0 then (decideFrame s.frame.code [] s).settle s.frame.code []
    else { s with frame := { s.frame with count := byte, args := [], phase := .arguments, bits := 0 } }
  | .arguments =>
    if s.frame.count.toNat ≤ s.frame.args.length + 1 then
      (decideFrame s.frame.code (s.frame.args ++ [byte]) s).settle s.frame.code (s.frame.args ++ [byte])
    else { s with frame := { s.frame with args := s.frame.args ++ [byte], bits := 0 } }
  | .turnaround | .status | .replyCount | .reply | .trailing =>
    { s with frame := { s.frame.nextReplyByte with bits := 0 } }

/-- MANAGEMENT_BYTE_COMPLETE (R171); during a reset the port ignores its lines (R170). -/
def execManagementByteComplete (byte : Byte) (s : State) : Host.Outcome State Fault Refusal :=
  .next (if s.running then s.frameByte byte else s)

/-- Whether the frame is in course, so that the part counts the edges of the clock: not in IDLE, where chip select is high,
and not in WAIT_RISE (R170). -/
def FramePhase.counts : FramePhase → Bool
  | .idle | .waitRise => false
  | .code | .count | .arguments | .turnaround | .status | .replyCount | .reply | .trailing => true

/-- A pulse of the management clock before the last of a byte: the part has received one more bit of the byte in hand
(R170). The eighth rising edge is MANAGEMENT_BYTE_COMPLETE, so the bit count stays at 7 until then; outside a frame, and
during a reset, the edge is ignored (log 16). -/
def State.clockPulse (s : State) : State :=
  if s.running ∧ s.frame.phase.counts ∧ s.frame.bits < 7 then { s with frame.bits := s.frame.bits + 1 } else s

/-- CHIP_SELECT_FALL (R170): a falling edge in phase IDLE begins a frame; during a reset only the line moves. A line
already low has no falling edge (log 5). -/
def execChipSelectFall (s : State) : Host.Outcome State Fault Refusal :=
  .next
    (if s.lines.csLow then s
    else if s.running ∧ s.frame.phase = .idle then { s with frame := { phase := .code }, lines.csLow := true }
    else { s with lines.csLow := true })

/-- The rise of chip select ends the frame (R173, R178); after a taken RESTART the reset of cause COMMAND takes place and
ends at once (R134, R135). -/
def State.endFrame (s : State) : State :=
  let risen : State := { s with lines.csLow := false }
  if s.control.restartPending then (risen.beginReset .command).endReset else { risen with frame := {} }

/-- CHIP_SELECT_RISE (R173); during a reset only the line moves. A line already high has no rise (log 5). -/
def execChipSelectRise (s : State) : Host.Outcome State Fault Refusal :=
  .next
    (if s.lines.csLow = false then s
    else if s.running then s.endFrame
    else { s with lines.csLow := false })

end Sys2Proof.Machine
end

