-- ==== Sys2Proof/Machine/HostAccess.lean ====
section
/-! DEFINITION. The host's requests and the grant of the Memory Port: HOST_WRITE, HOST_READ, HOST_READ_COMPLETE,
ARBITER_GRANT (chapters 6 and 7). -/

namespace Sys2Proof.Machine

/-- The host presents a request: the answer lines are released (log 12), and a part that runs classifies it (R100). One
request at a time: while one is presented no other can be (R99, log 5). -/
def State.present (s : State) (r : HostRequest) : State :=
  if s.lines.presented.isSome then s
  else
    let shown : State :=
      { s with lines := { s.lines with presented := some r, ready := false, error := false, hostData := 0 } }
    if s.running then shown.classify else shown

/-- HOST_WRITE (R103). -/
def execHostWrite (addr : WordAddr) (lanes : Lanes) (data : Word) (s : State) : Host.Outcome State Fault Refusal :=
  .next (s.present { kind := .write, addr := addr, lanes := lanes, data := data })

/-- HOST_READ (R115). -/
def execHostRead (addr : WordAddr) (lanes : Lanes) (s : State) : Host.Outcome State Fault Refusal :=
  .next (s.present { kind := .read, addr := addr, lanes := lanes, data := 0 })

/-- HOST_READ_COMPLETE: the read is completed with the word the memory holds (R117). -/
def execHostReadComplete (s : State) : Host.Outcome State Fault Refusal :=
  .next
    (match s.port.op with
    | some op => if op.kind = .hostRead then (s.afterOp op).completeHost (readWord s.mem op.start) else s
    | none => s)

/-- ARBITER_GRANT: the free port grants a waiting request that may be granted (R125 to R127), and nothing while a reset
lasts (R134). -/
def execArbiterGrant (s : State) : Host.Outcome State Fault Refusal :=
  .next
    (if s.running ∧ s.port.op = none then
      match s.nextGrant with
      | some k => s.grant k
      | none => s
    else s)

end Sys2Proof.Machine
end

