-- ==== Sys2Proof/Machine/Power.lean ====
section
/-! DEFINITION. Time, the power warning and the resets: AGE_TICK, AGE_EXPIRY, PFW_ASSERT, PFW_DEASSERT, POWER_ON,
POWER_LOSS, POWER_RESET_END, RSTN_ASSERT, RSTN_DEASSERT (chapters 1 and 8). -/

namespace Sys2Proof.Machine

/-- The age timer counts: OPEN or DOOMED, age running, the hold flag clear (R18). -/
def State.counting (s : State) : Bool :=
  (s.epoch.state == .opened || s.epoch.state == .doomed) && s.epoch.ageRunning && !s.control.hold

/-- The expiry: AGE_EXPIRED is set, the timer stops at the age limit, and under policy ABORT the epoch is aborted (R19,
R20). -/
def State.expire (s : State) : State :=
  let expired : State :=
    { s with epoch := { s.epoch with ageElapsed := s.regions.live.defaults.ageLimit, ageRunning := false } }
  match s.regions.live.defaults.agePolicy with
  | .notify => expired.raise .ageExpired
  | .abort => (expired.raise .ageExpired).abortEpoch

/-- AGE_TICK: age elapsed rises by 1, and the tick that makes it equal to the live age limit is the expiry (R18, log 9). With
a live age limit of 1 that is the first tick after a RENEW too, where R20's table tells of no expiry: the model follows R18
(log 30). -/
def execAgeTick (s : State) : Host.Outcome State Fault Refusal :=
  .next
    (if s.counting then
      if s.epoch.ageElapsed + 1 = s.regions.live.defaults.ageLimit then s.expire
      else { s with epoch.ageElapsed := s.epoch.ageElapsed + 1 }
    else s)

/-- AGE_EXPIRY: age elapsed reaches the age limit, by the tick that makes it so, or has reached it with the timer still
running (R19, log 9). -/
def execAgeExpiry (s : State) : Host.Outcome State Fault Refusal :=
  .next
    (if s.counting ∧
        (s.epoch.ageElapsed + 1 = s.regions.live.defaults.ageLimit ∨
          s.epoch.ageElapsed = s.regions.live.defaults.ageLimit) then
      s.expire
    else s)

/-- A read in GRANT_WAIT is held with POWER when the hold flag is set (R117, R119). -/
def State.holdGrantWait (s : State) : State := if s.host.phase = .grantWait then s.holdHost .power else s

/-- The hold flag is set: HOLD_ENTERED, the run pauses by R76, and a read in GRANT_WAIT is held (R146, R119). -/
def State.enterHold (s : State) : State :=
  ({ s with control.hold := true }.raise .holdEntered).pauseRun.holdGrantWait

/-- PFW_ASSERT: the line; the hold flag follows it unless a reset lasts (R146). A line already asserted has no edge
(log 5). -/
def execPfwAssert (s : State) : Host.Outcome State Fault Refusal :=
  .next
    (if s.lines.pfw then s
    else if s.running then { s with lines.pfw := true }.enterHold
    else { s with lines.pfw := true })

/-- The request the free port grants as the hold flag clears if the arbiter acts before a paused run has asked again (R76),
where that is another than it grants once the run has asked: an arming read, or a host read that the alternation state would
put behind the run (R125, R126). -/
def State.clearChoice (s : State) : Option OpKind :=
  if s.port.op.isNone ∧ s.resumeRun.nextGrant ≠ s.nextGrant then s.nextGrant else none

/-- The arbiter's run as the hold flag clears, where its choice depends on whether a paused run has asked again. R148 lets the
arbiter run and the run resume at that one event in no stated order, and by R160 an arming read may come between two restores,
so a free value says whether the arbiter acts first (R128, log 29). -/
def State.clearGrant (s : State) : State :=
  match s.clearChoice with
  | none => s
  | some k =>
    let chosen : State := { s with freeCount := s.freeCount + 1 }
    if Config.arbiterFirst s.freeCount then chosen.grant k else chosen

/-- The hold flag clears: HOLD_LEFT, and a request held with POWER is classified afresh, so that a read of it waits when the
arbiter runs (R128); the arbiter may act before a paused run asks again, and the run resumes (R146, R148). -/
def State.leaveHold (s : State) : State :=
  (({ s with control.hold := false }.raise .holdLeft).reclassify .power).clearGrant.resumeRun

/-- PFW_DEASSERT (R146, R148). A line already deasserted has no edge (log 5). -/
def execPfwDeassert (s : State) : Host.Outcome State Fault Refusal :=
  .next
    (if s.lines.pfw = false then s
    else if s.running then { s with lines.pfw := false }.leaveHold
    else { s with lines.pfw := false })

/-- POWER_ON: a reset of cause POWER begins (R134); on a part that still ran, its operation is cut short (log 21). -/
def execPowerOn (s : State) : Host.Outcome State Fault Refusal :=
  .next ({ s with lines.supply := .rising }.beginReset .power)

/-- POWER_LOSS: the operation in progress ends at the word being written or read (R132), and the part keeps nothing of its
own (R134, log 22). -/
def execPowerLoss (s : State) : Host.Outcome State Fault Refusal :=
  .next ({ s with lines.supply := .off }.beginReset s.control.cause)

/-- POWER_RESET_END: the supply and the clock are within range; the reset ends unless RSTN is asserted (R133, R134). -/
def execPowerResetEnd (s : State) : Host.Outcome State Fault Refusal :=
  .next
    (if s.lines.supply = .rising then
      if s.lines.rstn then { s with lines.supply := .inRange } else { s with lines.supply := .inRange }.endReset
    else s)

/-- RSTN_ASSERT: a reset of cause LINE begins; one of cause POWER that lasts stays recorded as POWER (R134). -/
def execRstnAssert (s : State) : Host.Outcome State Fault Refusal :=
  .next
    (if s.lines.rstn then s
    else if s.running then { s with lines.rstn := true }.beginReset .line
    else { s with lines.rstn := true })

/-- RSTN_DEASSERT: the reset ends, unless the supply has not come within range (R134). -/
def execRstnDeassert (s : State) : Host.Outcome State Fault Refusal :=
  .next
    (if s.lines.rstn = false then s
    else if s.lines.supply = .inRange then { s with lines.rstn := false }.endReset
    else { s with lines.rstn := false })

end Sys2Proof.Machine
end

