-- ==== Sys2Proof/Machine/QueueWork.lean ====
section
/-! DEFINITION. The completions of the write path and of the monitors' arming: QUEUE_WORD_WRITE_COMPLETE,
APPEND_BLOCK_READ_COMPLETE, APPEND_SLOT_WRITE_COMPLETE, ARMING_READ_COMPLETE (chapters 3, 6 and 9). -/

namespace Sys2Proof.Machine

/-- The head entry leaves the queue. -/
def State.popQueue (s : State) : State := { s with host.queue := s.host.queue.tail }

/-- QUEUE_WORD_WRITE_COMPLETE: the write is performed and shown to the monitors with source HOST, the entry retires, and
the notices are given (R111, R131). -/
def execQueueWordWriteComplete (s : State) : Host.Outcome State Fault Refusal :=
  .next
    (match s.port.op with
    | some op =>
      if op.kind = .queueWrite then
        (((s.afterOp op).showWrite op.start op.writes op.lanes .host).popQueue).leaveNotices
      else s
    | none => s)

/-- APPEND_BLOCK_READ_COMPLETE: the block is kept as the pre-image of the record being built (R43), whose slot write is
asked (R44). -/
def execAppendBlockReadComplete (s : State) : Host.Outcome State Fault Refusal :=
  .next
    (match s.port.op with
    | some op => if op.kind = .appendRead then { s.afterOp op with journal.preimage := some (s.wordsRead op) } else s
    | none => s)

/-- The sequence of the head entry's append. -/
def State.headSequence (s : State) : Option Nat :=
  match s.host.queue with
  | head :: _ => head.append.map (fun a => a.sequence)
  | [] => none

/-- The entry of a sequence becomes LOGGED; a spill has none (R32). -/
def markLogged (sequence : Option Nat) (set : List SetEntry) : List SetEntry :=
  set.map (fun e => if some e.sequence = sequence then { e with state := .logged } else e)

/-- The record's completion is reported: written rises and the set's entry becomes LOGGED; the append is no longer in
flight (R8, R32, R45). -/
def State.reportRecord (s : State) : State :=
  { s with
    epoch.written := s.epoch.written + 1
    loggedSet := markLogged s.headSequence s.loggedSet
    journal.preimage := none }

/-- APPEND_SLOT_WRITE_COMPLETE: the record is reported, and the head's word write becomes eligible; in ROLLING_BACK the
cancelled entry is removed instead, the rollback starts, and the notices are given (R45, R14, R15, R113). -/
def execAppendSlotWriteComplete (s : State) : Host.Outcome State Fault Refusal :=
  .next
    (match s.port.op with
    | some op =>
      if op.kind = .appendWrite then
        if s.epoch.state = .rollingBack then ((s.afterOp op).reportRecord.popQueue.startAbortRun).leaveNotices
        else (s.afterOp op).reportRecord.headProgress .writeWaiting
      else s
    | none => s)

/-- The arming read of a cell completes: the shadow is the word read and the state follows; no trigger is counted (R154). -/
def State.armed (s : State) (i : Fin 8) (w : Word) : State :=
  { s with
    monitors :=
      s.monitors.set i
        { s.monitors[i] with shadow := w, state := Cell.judged { s.monitors[i] with shadow := w } } }

/-- ARMING_READ_COMPLETE: a read whose cell was disarmed meanwhile is discarded (R154). -/
def execArmingReadComplete (s : State) : Host.Outcome State Fault Refusal :=
  .next
    (match s.port.op with
    | some op =>
      match op.kind with
      | .arming i true => (s.afterOp op).armed i (readWord s.mem op.start)
      | .arming _ false => s.afterOp op
      | _ => s
    | none => s)

end Sys2Proof.Machine
end

