-- ==== Sys2Proof/Machine/RollbackWork.lean ====
section
/-! DEFINITION. The completions of a rollback and of the anchors that end an epoch: ROLLBACK_SLOT_READ_COMPLETE,
RESTORE_WRITE_COMPLETE, COMMIT_ANCHOR_WRITE_COMPLETE, ABORT_ANCHOR_WRITE_COMPLETE (chapters 1, 3 and 4). -/

namespace Sys2Proof.Machine

/-- The record just read is judged: a valid one goes on to its restore, an invalid one is damage (R68, R70). -/
def State.judgeRollback (s : State) (ws : List Word) : State :=
  match judgeRecord s.rollback.expected (s.rollback.remaining - 1) s.journal.live ws with
  | some (block, words) => { s with rollback.phase := .restore block words }
  | none => s.damagedRecord

/-- ROLLBACK_SLOT_READ_COMPLETE (R68). -/
def execRollbackSlotReadComplete (s : State) : Host.Outcome State Fault Refusal :=
  .next
    (match s.port.op with
    | some op => if op.kind = .rollbackRead then (s.afterOp op).judgeRollback (s.wordsRead op) else s
    | none => s)

/-- RESTORE_WRITE_COMPLETE: the block is written and shown to the monitors with source ROLLBACK, and the record is
finished (R69, R131). -/
def execRestoreWriteComplete (s : State) : Host.Outcome State Fault Refusal :=
  .next
    (match s.port.op with
    | some op =>
      if op.kind = .restore then
        ((s.afterOp op).showWrite op.start op.writes op.lanes .rollback).finishRecord
      else s
    | none => s)

/-- COMMIT_ANCHOR_WRITE_COMPLETE, the commit point: the anchor is in force, COMMIT_DONE is set and the epoch reaches IDLE
(R12, R13, R51). -/
def execCommitAnchorWriteComplete (s : State) : Host.Outcome State Fault Refusal :=
  .next
    (match s.port.op with
    | some op =>
      match op.kind with
      | .commitAnchor c =>
        (((s.afterOp op).installAnchor c (s.epoch.serial + 1) s.closingTail).raise .commitDone).reachIdle
      | _ => s
    | none => s)

/-- The engine returns to run NONE and phase IDLE, keeping the damage counts (R71). -/
def State.endRun (s : State) : State :=
  { s with rollback := { s.rollback with run := .none, phase := .idle, remaining := 0 } }

/-- ABORT_ANCHOR_WRITE_COMPLETE: the anchor is in force, the run ends, ABORT_DONE is set and the epoch reaches IDLE (R16,
R71). -/
def execAbortAnchorWriteComplete (s : State) : Host.Outcome State Fault Refusal :=
  .next
    (match s.port.op with
    | some op =>
      match op.kind with
      | .abortAnchor c =>
        (((s.afterOp op).installAnchor c (s.epoch.serial + 1) s.closingTail).endRun.raise .abortDone).reachIdle
      | _ => s
    | none => s)

end Sys2Proof.Machine
end

