-- ==== Sys2Proof/Machine/StartUp.lean ====
section
/-! DEFINITION. The completions of start-up's operations: CONFIG_READ_COMPLETE, ANCHOR_READ_COMPLETE,
SCAN_SLOT_READ_COMPLETE, RECOVERY_ANCHOR_WRITE_COMPLETE (chapter 8). -/

namespace Sys2Proof.Machine

/-- The copy loaded: the one with the larger generation, A when they are equal, the valid one of two, or none (R93). -/
def chooseConfig : Option StoredConfig → Option StoredConfig → Option (Copy × StoredConfig)
  | some a, some b => if a.generation < b.generation then some (.b, b) else some (.a, a)
  | some a, none => some (.a, a)
  | none, some b => some (.b, b)
  | none, none => none

/-- A copy is loaded: its table and defaults become live, its location the live journal location, and it is the
configuration in force with its generation (R39, R92, R93). -/
def State.loadConfig (s : State) (copy : Copy) (c : StoredConfig) : State :=
  { s with
    journal.live := c.location
    regions := { live := c.table, staged := none, inForce := some copy, generation := c.generation
                 saving := s.regions.saving } }

/-- A journal is configured: the device is RECOVERING, the anchors are read next, and a request held with STARTING is
classified afresh (R101, R136). -/
def State.enterRecovering (s : State) : State :=
  { s with control := { s.control with device := .recovering, step := .anchorRead, firstCopy := none } }.reclassify
    .starting

/-- The configuration load decides (R93, R136, R137). -/
def State.decideConfig (s : State) (a b : List Word) : State :=
  match chooseConfig (judgeConfig a) (judgeConfig b) with
  | none => (s.raise .configInvalid).reachReady
  | some (copy, c) =>
    if c.location.slots = 0 then (s.loadConfig copy c).reachReady else (s.loadConfig copy c).enterRecovering

/-- CONFIG_READ_COMPLETE: copy A is kept, and when copy B has been read both are judged (R136, R179). -/
def execConfigReadComplete (s : State) : Host.Outcome State Fault Refusal :=
  .next
    (match s.port.op with
    | some op =>
      match op.kind with
      | .configRead .a => { s.afterOp op with control.firstCopy := some (s.wordsRead op) }
      | .configRead .b => (s.afterOp op).decideConfig (s.control.firstCopy.getD []) (s.wordsRead op)
      | _ => s
    | none => s)

/-- The anchors are judged: none is JOURNAL_INVALID and READY, else the scan begins at index 0 (R138). -/
def State.decideAnchor (s : State) (a b : List Word) : State :=
  match chooseAnchor (judgeAnchor s.journal.live a) (judgeAnchor s.journal.live b) with
  | none => (s.raise .journalInvalid).reachReady
  | some (copy, anchor) =>
    { s.installAnchor copy anchor.next anchor.tail with
      control := { s.control with step := .scan, scanIndex := 0, firstCopy := none } }

/-- ANCHOR_READ_COMPLETE: copy A is kept, and when copy B has been read both are judged (R138, R179). -/
def execAnchorReadComplete (s : State) : Host.Outcome State Fault Refusal :=
  .next
    (match s.port.op with
    | some op =>
      match op.kind with
      | .anchorRead .a => { s.afterOp op with control.firstCopy := some (s.wordsRead op) }
      | .anchorRead .b => (s.afterOp op).decideAnchor (s.control.firstCopy.getD []) (s.wordsRead op)
      | _ => s
    | none => s)

/-- Whether the slot just scanned holds a record of the unfinished epoch (R139). No record can carry the serial
4,294,967,295, so under that next serial the scan ends at once (R63, log 11). -/
def State.scanHit (s : State) (ws : List Word) : Bool :=
  s.journal.anchorSerial != Config.maxSerial &&
    (judgeRecord s.journal.anchorSerial s.control.scanIndex s.journal.live ws).isSome

/-- The slot just scanned is judged: a valid record raises the scan index, an invalid one ends the scan, and so does the
slot count (R139). A record damaged since hides those of higher sequences, and those before it are restored (log 27). -/
def State.judgeScan (s : State) (ws : List Word) : State :=
  if s.scanHit ws then
    if s.slots ≤ s.control.scanIndex + 1 then s.endScan (s.control.scanIndex + 1)
    else { s with control.scanIndex := s.control.scanIndex + 1 }
  else s.endScan s.control.scanIndex

/-- SCAN_SLOT_READ_COMPLETE (R139). -/
def execScanSlotReadComplete (s : State) : Host.Outcome State Fault Refusal :=
  .next
    (match s.port.op with
    | some op => if op.kind = .scanRead then (s.afterOp op).judgeScan (s.wordsRead op) else s
    | none => s)

/-- Recovery is finished: the serial is that of the anchor just written, the journal is FORMATTED, the last recovery result
is kept (R141). -/
def State.finishRecovery (s : State) : State :=
  { s with
    epoch.serial := s.journal.anchorSerial
    journal.status := .formatted
    control := { s.control with lastN := s.control.scanIndex, lastDamage := s.rollback.damage } }

/-- RECOVERY_ANCHOR_WRITE_COMPLETE: the anchor is in force, RECOVERED is set and the device reaches READY (R141). -/
def execRecoveryAnchorWriteComplete (s : State) : Host.Outcome State Fault Refusal :=
  .next
    (match s.port.op with
    | some op =>
      match op.kind with
      | .recoveryAnchor c =>
        (((s.afterOp op).installAnchor c (s.journal.anchorSerial + 1) s.recoveryTail).finishRecovery.raise
          .recovered).reachReady
      | _ => s
    | none => s)

end Sys2Proof.Machine
end

