-- ==== Sys2Proof/Machine/Dispatch.lean ====
section
/-! DEFINITION. The meaning of each command: one arm per row of spec/opcode_table.json. -/

namespace Sys2Proof.Machine

def exec (i : Instr) (s : State) : Host.Outcome State Fault Refusal :=
  match i with
  | .status => Sys2Proof.Machine.execStatus s
  | .begin => Sys2Proof.Machine.execBegin s
  | .commit => Sys2Proof.Machine.execCommit s
  | .abort => Sys2Proof.Machine.execAbort s
  | .renew => Sys2Proof.Machine.execRenew s
  | .readSet start => Sys2Proof.Machine.execReadSet start s
  | .setJournal base slots => Sys2Proof.Machine.execSetJournal base slots s
  | .format => Sys2Proof.Machine.execFormat s
  | .setRegion index valid first last cls width policy => Sys2Proof.Machine.execSetRegion index valid first last cls width policy s
  | .getRegion index => Sys2Proof.Machine.execGetRegion index s
  | .setDefaults cls ageLimit policy => Sys2Proof.Machine.execSetDefaults cls ageLimit policy s
  | .saveConfig => Sys2Proof.Machine.execSaveConfig s
  | .armMonitor index addr mask compare trigger => Sys2Proof.Machine.execArmMonitor index addr mask compare trigger s
  | .disarmMonitor index => Sys2Proof.Machine.execDisarmMonitor index s
  | .getMonitor index => Sys2Proof.Machine.execGetMonitor index s
  | .readEvents => Sys2Proof.Machine.execReadEvents s
  | .clearEvents mask => Sys2Proof.Machine.execClearEvents mask s
  | .setEventEnables mask => Sys2Proof.Machine.execSetEventEnables mask s
  | .readFault => Sys2Proof.Machine.execReadFault s
  | .clearFault => Sys2Proof.Machine.execClearFault s
  | .restart => Sys2Proof.Machine.execRestart s
  | .badCommandFrame code args => Sys2Proof.Machine.execBadCommandFrame code args s
  | .chipSelectFall => Sys2Proof.Machine.execChipSelectFall s
  | .chipSelectRise => Sys2Proof.Machine.execChipSelectRise s
  | .hostWrite addr lanes data => Sys2Proof.Machine.execHostWrite addr lanes data s
  | .hostRead addr lanes => Sys2Proof.Machine.execHostRead addr lanes s
  | .arbiterGrant => Sys2Proof.Machine.execArbiterGrant s
  | .hostReadComplete => Sys2Proof.Machine.execHostReadComplete s
  | .queueWordWriteComplete => Sys2Proof.Machine.execQueueWordWriteComplete s
  | .appendBlockReadComplete => Sys2Proof.Machine.execAppendBlockReadComplete s
  | .appendSlotWriteComplete => Sys2Proof.Machine.execAppendSlotWriteComplete s
  | .rollbackSlotReadComplete => Sys2Proof.Machine.execRollbackSlotReadComplete s
  | .restoreWriteComplete => Sys2Proof.Machine.execRestoreWriteComplete s
  | .commitAnchorWriteComplete => Sys2Proof.Machine.execCommitAnchorWriteComplete s
  | .abortAnchorWriteComplete => Sys2Proof.Machine.execAbortAnchorWriteComplete s
  | .zeroAnchorWriteComplete => Sys2Proof.Machine.execZeroAnchorWriteComplete s
  | .formatConfigWriteComplete => Sys2Proof.Machine.execFormatConfigWriteComplete s
  | .zeroSlotWriteComplete => Sys2Proof.Machine.execZeroSlotWriteComplete s
  | .formatAnchorWriteComplete => Sys2Proof.Machine.execFormatAnchorWriteComplete s
  | .saveConfigWriteComplete => Sys2Proof.Machine.execSaveConfigWriteComplete s
  | .armingReadComplete => Sys2Proof.Machine.execArmingReadComplete s
  | .configReadComplete => Sys2Proof.Machine.execConfigReadComplete s
  | .anchorReadComplete => Sys2Proof.Machine.execAnchorReadComplete s
  | .scanSlotReadComplete => Sys2Proof.Machine.execScanSlotReadComplete s
  | .recoveryAnchorWriteComplete => Sys2Proof.Machine.execRecoveryAnchorWriteComplete s
  | .ageTick => Sys2Proof.Machine.execAgeTick s
  | .ageExpiry => Sys2Proof.Machine.execAgeExpiry s
  | .pfwAssert => Sys2Proof.Machine.execPfwAssert s
  | .pfwDeassert => Sys2Proof.Machine.execPfwDeassert s
  | .powerOn => Sys2Proof.Machine.execPowerOn s
  | .powerLoss => Sys2Proof.Machine.execPowerLoss s
  | .powerResetEnd => Sys2Proof.Machine.execPowerResetEnd s
  | .rstnAssert => Sys2Proof.Machine.execRstnAssert s
  | .rstnDeassert => Sys2Proof.Machine.execRstnDeassert s
  | .managementByteComplete byte => Sys2Proof.Machine.execManagementByteComplete byte s

end Sys2Proof.Machine
end

