-- ==== Sys2Proof/WellFormed.lean ====
section
/-! DEFINITION. Which terms of Instr are commands the outside can send. -/

namespace Sys2Proof

/-- A BAD_COMMAND_FRAME carries a code that is no command code (R172 check 1) and as many arguments as a count byte can
name (R170). Every operand of every other row is in range by its width. -/
def Instr.wellFormed : Instr → Bool
  | .badCommandFrame code args => (Command.ofCode code).isNone && decide (args.length ≤ 255)
  | .status | .begin | .commit | .abort | .renew | .readSet _ | .setJournal _ _ | .format | .setRegion _ _ _ _ _ _ _
  | .getRegion _ | .setDefaults _ _ _ | .saveConfig | .armMonitor _ _ _ _ _ | .disarmMonitor _ | .getMonitor _
  | .readEvents | .clearEvents _ | .setEventEnables _ | .readFault | .clearFault | .restart
  | .chipSelectFall | .chipSelectRise | .hostWrite _ _ _ | .hostRead _ _ | .arbiterGrant | .hostReadComplete
  | .queueWordWriteComplete | .appendBlockReadComplete | .appendSlotWriteComplete | .rollbackSlotReadComplete
  | .restoreWriteComplete | .commitAnchorWriteComplete | .abortAnchorWriteComplete | .zeroAnchorWriteComplete
  | .formatConfigWriteComplete | .zeroSlotWriteComplete | .formatAnchorWriteComplete | .saveConfigWriteComplete
  | .armingReadComplete | .configReadComplete | .anchorReadComplete | .scanSlotReadComplete
  | .recoveryAnchorWriteComplete | .ageTick | .ageExpiry | .pfwAssert | .pfwDeassert | .powerOn | .powerLoss
  | .powerResetEnd | .rstnAssert | .rstnDeassert | .managementByteComplete _ => true

end Sys2Proof
end

