-- ==== Sys2Proof/Laws/PerInstr.lean ====
section
/-! SUPPORT. Families of statements about each command as syntax, with one lemma per constructor. -/

namespace Sys2Proof.Laws

/-- A word's two bytes give it back. -/
theorem word16_bytes16 (w : Word) : word16 (w.extractLsb' 8 8) (w.extractLsb' 0 8) = w := by
  apply BitVec.eq_of_getLsbD_eq
  intro i hi
  simp only [word16, BitVec.getLsbD_append, BitVec.getLsbD_extractLsb']
  by_cases h : i < 8
  · simp [h]
  · have e : 8 + (i - 8) = i := by omega
    simp [h, e]
    omega

/-- A 24-bit field's three bytes give it back. -/
theorem word24_bytes24 (w : BitVec 24) :
    word24 (w.extractLsb' 16 8) (w.extractLsb' 8 8) (w.extractLsb' 0 8) = w := by
  apply BitVec.eq_of_getLsbD_eq
  intro i hi
  simp only [word24, BitVec.getLsbD_append, BitVec.getLsbD_extractLsb']
  by_cases h : i < 8
  · simp [h]
  · by_cases h2 : i - 8 < 8
    · have e : 8 + (i - 8) = i := by omega
      simp [h, h2, e]
    · have e : 16 + (i - 8 - 8) = i := by omega
      have l : i - 8 - 8 < 8 := by omega
      simp [h, h2, e, l]

/-- A command's code names it. -/
theorem ofCode_code (c : Command) : Command.ofCode c.code = some c := by cases c <;> decide

namespace FrameRoundTrip

/-- The frame of a well-formed management command decodes to the command (chapter 12.2). -/
def Statement (i : Instr) : Prop :=
  i.wellFormed = true → ∀ code args, frameOf i = some (code, args) → decodeFrame code args = some i

/-- A row whose frame carries a command code and arguments that decode to it. -/
theorem of_command (d : Command) {i : Instr} {args : List Byte} (hf : frameOf i = some (d.code, args))
    (hd : decodeArgs d args = some i) : Statement i := fun _ c a h => by
  cases hf.symm.trans h
  rw [decodeFrame, ofCode_code]
  exact hd

/-- A row that no frame carries. -/
theorem of_none {i : Instr} (hf : frameOf i = none) : Statement i := fun _ _ _ h => nomatch hf.symm.trans h

theorem status : Statement .status := of_command .status rfl rfl

theorem begin : Statement .begin := of_command .begin rfl rfl

theorem commit : Statement .commit := of_command .commit rfl rfl

theorem abort : Statement .abort := of_command .abort rfl rfl

theorem renew : Statement .renew := of_command .renew rfl rfl

theorem readSet (start : Byte) : Statement (.readSet start) := of_command .readSet rfl rfl

theorem setJournal (base slots : Word) : Statement (.setJournal base slots) :=
  of_command .setJournal rfl (congrArg some (congrArg₂ Instr.setJournal (word16_bytes16 base) (word16_bytes16 slots)))

theorem format : Statement .format := of_command .format rfl rfl

theorem setRegion (index valid : Byte) (first last : Word) (cls width policy : Byte) : Statement (.setRegion index valid first last cls width policy) :=
  of_command .setRegion rfl
    (congrArg₂ (fun x y => some (Instr.setRegion index valid x y cls width policy)) (word16_bytes16 first) (word16_bytes16 last))

theorem getRegion (index : Byte) : Statement (.getRegion index) := of_command .getRegion rfl rfl

theorem setDefaults (cls : Byte) (ageLimit : Word) (policy : Byte) : Statement (.setDefaults cls ageLimit policy) :=
  of_command .setDefaults rfl (congrArg (fun x => some (Instr.setDefaults cls x policy)) (word16_bytes16 ageLimit))

theorem saveConfig : Statement .saveConfig := of_command .saveConfig rfl rfl

theorem armMonitor (index : Byte) (addr : BitVec 24) (mask compare : Word) (trigger : Byte) : Statement (.armMonitor index addr mask compare trigger) :=
  of_command .armMonitor rfl
    ((congrArg (fun x => some (Instr.armMonitor index x _ _ trigger)) (word24_bytes24 addr)).trans
      (congrArg₂ (fun x y => some (Instr.armMonitor index addr x y trigger)) (word16_bytes16 mask) (word16_bytes16 compare)))

theorem disarmMonitor (index : Byte) : Statement (.disarmMonitor index) := of_command .disarmMonitor rfl rfl

theorem getMonitor (index : Byte) : Statement (.getMonitor index) := of_command .getMonitor rfl rfl

theorem readEvents : Statement .readEvents := of_command .readEvents rfl rfl

theorem clearEvents (mask : BitVec 24) : Statement (.clearEvents mask) :=
  of_command .clearEvents rfl (congrArg (fun m => some (Instr.clearEvents m)) (word24_bytes24 mask))

theorem setEventEnables (mask : BitVec 24) : Statement (.setEventEnables mask) :=
  of_command .setEventEnables rfl (congrArg (fun m => some (Instr.setEventEnables m)) (word24_bytes24 mask))

theorem readFault : Statement .readFault := of_command .readFault rfl rfl

theorem clearFault : Statement .clearFault := of_command .clearFault rfl rfl

theorem restart : Statement .restart := of_command .restart rfl rfl

theorem badCommandFrame (code : Byte) (args : List Byte) : Statement (.badCommandFrame code args) := fun hw _ _ h => by
  cases h
  have hw : (Command.ofCode code).isNone = true ∧ decide (args.length ≤ 255) = true := Bool.and_eq_true_iff.1 hw
  rw [decodeFrame, Option.isNone_iff_eq_none.1 hw.1]
  exact if_pos (of_decide_eq_true hw.2)

theorem chipSelectFall : Statement .chipSelectFall := of_none rfl

theorem chipSelectRise : Statement .chipSelectRise := of_none rfl

theorem hostWrite (addr : WordAddr) (lanes : Lanes) (data : Word) : Statement (.hostWrite addr lanes data) :=
  of_none rfl

theorem hostRead (addr : WordAddr) (lanes : Lanes) : Statement (.hostRead addr lanes) := of_none rfl

theorem arbiterGrant : Statement .arbiterGrant := of_none rfl

theorem hostReadComplete : Statement .hostReadComplete := of_none rfl

theorem queueWordWriteComplete : Statement .queueWordWriteComplete := of_none rfl

theorem appendBlockReadComplete : Statement .appendBlockReadComplete := of_none rfl

theorem appendSlotWriteComplete : Statement .appendSlotWriteComplete := of_none rfl

theorem rollbackSlotReadComplete : Statement .rollbackSlotReadComplete := of_none rfl

theorem restoreWriteComplete : Statement .restoreWriteComplete := of_none rfl

theorem commitAnchorWriteComplete : Statement .commitAnchorWriteComplete := of_none rfl

theorem abortAnchorWriteComplete : Statement .abortAnchorWriteComplete := of_none rfl

theorem zeroAnchorWriteComplete : Statement .zeroAnchorWriteComplete := of_none rfl

theorem formatConfigWriteComplete : Statement .formatConfigWriteComplete := of_none rfl

theorem zeroSlotWriteComplete : Statement .zeroSlotWriteComplete := of_none rfl

theorem formatAnchorWriteComplete : Statement .formatAnchorWriteComplete := of_none rfl

theorem saveConfigWriteComplete : Statement .saveConfigWriteComplete := of_none rfl

theorem armingReadComplete : Statement .armingReadComplete := of_none rfl

theorem configReadComplete : Statement .configReadComplete := of_none rfl

theorem anchorReadComplete : Statement .anchorReadComplete := of_none rfl

theorem scanSlotReadComplete : Statement .scanSlotReadComplete := of_none rfl

theorem recoveryAnchorWriteComplete : Statement .recoveryAnchorWriteComplete := of_none rfl

theorem ageTick : Statement .ageTick := of_none rfl

theorem ageExpiry : Statement .ageExpiry := of_none rfl

theorem pfwAssert : Statement .pfwAssert := of_none rfl

theorem pfwDeassert : Statement .pfwDeassert := of_none rfl

theorem powerOn : Statement .powerOn := of_none rfl

theorem powerLoss : Statement .powerLoss := of_none rfl

theorem powerResetEnd : Statement .powerResetEnd := of_none rfl

theorem rstnAssert : Statement .rstnAssert := of_none rfl

theorem rstnDeassert : Statement .rstnDeassert := of_none rfl

theorem managementByteComplete (byte : Byte) : Statement (.managementByteComplete byte) := of_none rfl

end FrameRoundTrip

end Sys2Proof.Laws
end

