-- ==== Sys2Proof/Safety.lean ====
section
/-! DEFINITION. The terms the statements use: what a decided frame leaves, which bytes an operation stores, runs of
commands, and the invariants every step keeps. -/

namespace Sys2Proof.Machine

/-- The state with a frame decided: the frame record of R172, chip select low, all else unchanged. -/
def State.decided (s : State) (code : Byte) (args : List Byte) (status : Status) (reply : List Byte) : State :=
  { s with frame := decidedFrame code args status reply, lines.csLow := true }

/-- The host lines after an answer (R99): nothing presented, ready or error given, the data lines as said. -/
def Lines.answered (l : Lines) (ready error : Bool) (data : Word) : Lines :=
  { l with presented := none, ready := ready, error := error, hostData := data }

/-- The state with a host request just presented and its phase CLASSIFYING (R99, R100). -/
def State.presenting (s : State) (r : HostRequest) : State :=
  { s with
    host.phase := .classifying
    lines := { s.lines with presented := some r, ready := false, error := false, hostData := 0 } }

/-- The row that is the completion of an operation. -/
def completionOf : OpKind → Instr
  | .hostRead => .hostReadComplete
  | .queueWrite => .queueWordWriteComplete
  | .appendRead => .appendBlockReadComplete
  | .appendWrite => .appendSlotWriteComplete
  | .rollbackRead => .rollbackSlotReadComplete
  | .restore => .restoreWriteComplete
  | .commitAnchor _ => .commitAnchorWriteComplete
  | .abortAnchor _ => .abortAnchorWriteComplete
  | .recoveryAnchor _ => .recoveryAnchorWriteComplete
  | .zeroAnchor _ => .zeroAnchorWriteComplete
  | .formatConfig _ => .formatConfigWriteComplete
  | .zeroSlot => .zeroSlotWriteComplete
  | .formatAnchor => .formatAnchorWriteComplete
  | .saveConfig _ => .saveConfigWriteComplete
  | .arming _ _ => .armingReadComplete
  | .configRead _ => .configReadComplete
  | .anchorRead _ => .anchorReadComplete
  | .scanRead => .scanSlotReadComplete

/-- Whether an operation stores to a byte of the attached memory: a lane it writes, of a word of its extent (R121). -/
def Operation.stores (op : Operation) (a : Nat) : Prop :=
  ∃ i, i < op.writes.length ∧
    ((a = lowByteAt (op.start + BitVec.ofNat 20 i) ∧ (op.lanes = .low ∨ op.lanes = .both)) ∨
      (a = highByteAt (op.start + BitVec.ofNat 20 i) ∧ (op.lanes = .high ∨ op.lanes = .both)))

/-- Whether a byte lies in a word of an operation's extent. -/
def Operation.covers (op : Operation) (a : Nat) : Prop :=
  ∃ i, i < op.writes.length ∧
    (a = lowByteAt (op.start + BitVec.ofNat 20 i) ∨ a = highByteAt (op.start + BitVec.ofNat 20 i))

/-- The rows that begin, or may begin, a reset while the part runs (R134). -/
def mayReset : Instr → Bool
  | .chipSelectRise | .powerOn | .powerLoss | .rstnAssert => true
  | _ => false

/-- Commands run one after the other, stopping at the first that answers no next state. -/
def runAll : List Instr → State → Host.Outcome State Fault Refusal
  | [], s => .next s
  | c :: rest, s =>
    match exec c s with
    | .next t => runAll rest t
    | .fault r => .fault r
    | .refused r => .refused r

/-- The rows that clock a frame's bytes up to its decision point: the fall of chip select, the code, N and the arguments
(R171, R172). -/
def frameRows (code : Byte) (args : List Byte) : List Instr :=
  .chipSelectFall :: .managementByteComplete code :: .managementByteComplete (byteOf args.length) ::
    args.map Instr.managementByteComplete

/-- The state with the request presented classified afresh, where a hold reason has ended or a read in GRANT_WAIT must be
looked at again (R101, R117). -/
def State.classifiedIf (s : State) (again : Bool) : State := if again then s.classify else s

/-- A host write that has passed the first three steps of its acceptance (R103, R104): its request is the only one, and the
lookup named a region that is not GUARDED and whose width admits the lanes. -/
def State.admitsWrite (s : State) (addr : WordAddr) (lanes : Lanes) (index : RegionIndex) (cls : RegionClass)
    (width : Width) (policy : OutsidePolicy) : Prop :=
  s.running = true ∧ s.lines.presented = none ∧ s.control.device ≠ .starting ∧ s.control.hold = false ∧
    s.draining = false ∧ s.lookup addr = .region index cls width policy ∧ cls ≠ .guarded ∧
    ¬(width = .wordOnly ∧ (lanes = .low ∨ lanes = .high))

/-- A write completed to the host with its entry at the end of the queue (R110). -/
def State.queued (s : State) (e : QueueEntry) : State :=
  { s with host := { phase := .idle, queue := s.host.queue ++ [e] }, lines := s.lines.answered true false 0 }

/-- A request refused: the offer to the Event Unit and the error answer (R99, R102, R167). -/
def State.refused (s : State) (kind : AccessKind) (addr : WordAddr) (lanes : Lanes) (reason : RefusalReason)
    (serial : Serial) : State :=
  { s with
    host.phase := .idle
    events :=
      { s.events with
        flags := s.events.flags ||| EventFlag.hostRefusal.mask
        fault := some (s.events.fault.getD
          { kind := kind, addr := addr, lanes := lanes, reason := reason, serial := serial })
        refusals := min 255 (s.events.refusals + 1) }
    lines := s.lines.answered false true 0 }

/-- The serial a refusal records: that of the epoch that exists, 0 in IDLE (R102). -/
def State.refusalSerial (s : State) : Serial := if s.epoch.state = .idle then 0 else s.epoch.serial

/-- The entries that stay when the epoch's are cancelled: every entry of another tag, and a head whose append or word
write is under way (R113). -/
def State.keptQueue (s : State) : List QueueEntry :=
  match s.host.queue with
  | [] => []
  | head :: rest =>
    (if head.tag = some s.epoch.serial ∧ head.progress ≠ .appendInFlight ∧ head.progress ≠ .writeInProgress then []
      else [head]) ++ rest.filter (fun e => decide (e.tag ≠ some s.epoch.serial))

/-- Whether the run of R15 starts at once: no run is in progress and no append of the queue that stays is in flight. -/
def State.runStarts (s : State) : Bool :=
  s.rollback.run == .none && !(s.keptQueue.head?.any (fun e => e.progress == .appendInFlight))

/-- The epoch's abort, the request presented apart: ROLLING_BACK, the timer stopped, the queue cancelled, and the run
started where it may (R14, R15, R65, R113). -/
def State.abortedBase (s : State) : State :=
  { s with
    epoch :=
      { s.epoch with
        state := .rollingBack
        ageRunning := false
        reserved := if s.runStarts then s.epoch.written else s.epoch.reserved }
    host.queue := s.keptQueue
    rollback :=
      if s.runStarts then
        { run := .abort
          phase := if s.control.hold then .paused else if s.epoch.written = 0 then .close else .read
          expected := s.epoch.serial
          baseTail := s.journal.tail
          remaining := s.epoch.written
          damage := 0
          lastDamage := 0 }
      else s.rollback }

/-- Whether an entry left the queue in a cancellation. -/
def State.entriesLeft (s : State) : Bool := decide (s.keptQueue.length < s.host.queue.length)

/-- Whether the request presented is classified afresh when a queue takes the place of another, entries having left it:
one held with QUEUE_FULL, or a read held with BLOCK_ORDER of whose block no entry remains (R111, R113, R116). -/
def State.leaveFrees (s : State) (queue : List QueueEntry) : Bool :=
  s.host.phase == .held .queueFull && s.lines.presented.isSome ||
    s.host.phase == .held .blockOrder &&
      s.lines.presented.any (fun r => !queue.any (fun e => blockOf e.addr == blockOf r.addr))

/-- The epoch's abort as a whole (R14, R15, R20, R113, R117). -/
def State.aborted (s : State) : State :=
  s.abortedBase.classifiedIf (s.host.phase == .grantWait || s.entriesLeft && s.leaveFrees s.keptQueue)

/-- The epoch at IDLE, the request presented apart (R13, R34, R88). -/
def State.atIdle (s : State) : State :=
  { s with
    epoch := { state := .idle, serial := s.epoch.serial + 1, reserved := 0, written := 0, spills := 0, ageElapsed := 0
               ageRunning := false }
    loggedSet := []
    regions := { s.regions with live := s.regions.staged.getD s.regions.live, staged := none } }

/-- The device at READY, the request presented apart (R142). -/
def State.atReady (s : State) : State :=
  { s with
    control := { s.control with device := .ready, step := .done, firstCopy := none }
    events.flags := s.events.flags ||| EventFlag.startDone.mask }

/-- Whether READY classifies the request presented afresh: one held with STARTING or RECOVERY (R101, R142). -/
def State.readyFrees (s : State) : Bool :=
  s.host.phase == .held .starting || s.host.phase == .held .recovery

/-! ## Invariants -/

/-- The attached memory is in canonical form. -/
def State.memoryWf (s : State) : Prop := Memory.wf s.mem

/-- The capacities: 8 queue entries (R110), 64 set entries with distinct blocks (R25), a refusal count of at most 255
(R167), trigger counts of at most 15 (section 9.1), a bit count of at most 7 (R170). -/
def State.bounded (s : State) : Prop :=
  s.host.queue.length ≤ 8 ∧ s.loggedSet.length ≤ 64 ∧ (s.loggedSet.map (fun e => e.block)).Nodup ∧
    s.events.refusals ≤ 255 ∧ (∀ i : Fin 8, s.monitors[i].count ≤ 15) ∧ s.frame.bits ≤ 7

/-- The law of R82 on the live table, kept for the staged table and the staged location too, so that neither can break it
when it becomes live (R54, R84, R88); and what start-up needs for the load to keep it: nothing is staged before READY, and
configuration copies are read in STARTING alone. -/
def State.regionLaw (s : State) : Prop :=
  s.regions.live.lawful s.journal.live = true ∧
    (∀ l, s.journal.staged = some l → s.regions.live.lawful l = true) ∧
    (∀ t, s.regions.staged = some t →
      t.lawful s.journal.live = true ∧ ∀ l, s.journal.staged = some l → t.lawful l = true) ∧
    (s.control.device ≠ .ready → s.journal.staged = none ∧ s.regions.staged = none) ∧
    (s.control.step = .configRead → s.control.device = .starting) ∧
    (∀ op c, s.port.op = some op → op.kind = .configRead c → s.control.device = .starting)

/-- The start-up step, the device state, the run and the start-up operations agree (section 8.3). -/
def State.startOrder (s : State) : Prop :=
  (s.control.device = .starting ↔ s.control.step = .configRead) ∧
    (s.control.device = .ready ↔ s.control.step = .done) ∧
    (s.rollback.run = .recovery → s.control.step = .rollback) ∧
    (∀ op, s.port.op = some op →
      (∀ c, op.kind = .configRead c → s.control.step = .configRead) ∧
        (∀ c, op.kind = .anchorRead c → s.control.step = .anchorRead) ∧
        (op.kind = .scanRead → s.control.step = .scan) ∧
        (∀ c, op.kind = .recoveryAnchor c → s.control.step = .anchorWrite))

/-- An entry owes a record while its append has not completed (R110). -/
def QueueEntry.owes (e : QueueEntry) : Bool := e.progress == .appendWaiting || e.progress == .appendInFlight

/-- The sequence of an entry's append. -/
def QueueEntry.sequence (e : QueueEntry) : Nat := (e.append.map (fun a => a.sequence)).getD 0

/-- The sequences of the records still owed, head first. -/
def State.owedSequences (s : State) : List Nat := (s.host.queue.filter QueueEntry.owes).map QueueEntry.sequence

/-- Whether the head's word write is being performed. -/
def State.writeInProgress (s : State) : Bool := s.host.queue.head?.any (fun e => e.progress == .writeInProgress)

/-- In IDLE nothing of an epoch is left: zero counters, a stopped timer, an empty set, no staged edits, no entry of an
epoch in the queue (R11, R13, R25, R87). -/
def State.idleClean (s : State) : Prop :=
  s.epoch.state = .idle →
    s.epoch.reserved = 0 ∧ s.epoch.written = 0 ∧ s.epoch.spills = 0 ∧ s.epoch.ageElapsed = 0 ∧
      s.epoch.ageRunning = false ∧ s.loggedSet = [] ∧ s.regions.staged = none ∧ ∀ e ∈ s.host.queue, e.tag = none

/-- In OPEN, DOOMED and CLOSING the occupancy plus the spill count equals reserved (R29), and the records still owed carry
the sequences from written to reserved, in queue order (R5). -/
def State.reservationsBalance (s : State) : Prop :=
  s.epoch.state = .opened ∨ s.epoch.state = .doomed ∨ s.epoch.state = .closing →
    s.loggedSet.length + s.epoch.spills = s.epoch.reserved ∧
      s.owedSequences = List.range' s.epoch.written (s.epoch.reserved - s.epoch.written)

/-- While an epoch exists, written is at most reserved and reserved at most the slot count (R5); its entries carry its
serial (R110); and the device is READY with no FORMAT in progress (R4). -/
def State.epochBound (s : State) : Prop :=
  (s.epoch.state ≠ .idle →
    s.epoch.written ≤ s.epoch.reserved ∧ s.epoch.reserved ≤ s.slots ∧ s.control.device = .ready ∧
      s.journal.format = none) ∧
    (∀ e ∈ s.host.queue, e.tag = none ∨ e.tag = some s.epoch.serial) ∧
    ∀ e ∈ s.host.queue, e.owes = true → e.tag ≠ none ∧ e.append ≠ none

/-- In ROLLING_BACK the epoch's only entry is a head under way; the run, once started, has dropped the reservations beyond
written, and no append is in flight (R14, R15). -/
def State.rollingBackOrder (s : State) : Prop :=
  (s.epoch.state = .rollingBack →
    (∀ e ∈ s.host.queue.tail, e.tag = none) ∧
      (∀ e, s.host.queue.head? = some e → e.tag ≠ none → e.underWay = true) ∧
      s.owedSequences = if s.appendInFlight then [s.epoch.written] else []) ∧
    (s.epoch.state = .rollingBack → s.appendInFlight = true → s.epoch.written < s.epoch.reserved) ∧
    (s.rollback.run = .abort →
      s.epoch.state = .rollingBack ∧ s.appendInFlight = false ∧ s.epoch.reserved = s.epoch.written) ∧
    (s.rollback.run = .none ↔ s.rollback.phase = .idle) ∧
    (s.rollback.run = .recovery → 1 ≤ s.rollback.remaining ∧ s.rollback.phase ≠ .close)

/-- The operation in progress and the state of its owner agree (sections 6.3 and 7.1); only the head entry of the queue
makes progress (R111). -/
def State.portOrder (s : State) : Prop :=
  (∀ e ∈ s.host.queue.tail, e.progress = .appendWaiting ∨ e.progress = .writeWaiting) ∧
    (s.writeInProgress = true → ∃ op, s.port.op = some op ∧ op.kind = .queueWrite) ∧
    ∀ op, s.port.op = some op →
      (op.kind = .queueWrite → s.writeInProgress = true) ∧
        (op.kind = .appendRead ∨ op.kind = .appendWrite → s.appendInFlight = true) ∧
        (op.kind = .rollbackRead → s.rollback.phase = .read) ∧
        (op.kind = .restore → ∃ block words, s.rollback.phase = .restore block words) ∧
        (op.kind = .formatAnchor → s.journal.format ≠ none) ∧
        (∀ c, op.kind = .commitAnchor c → s.epoch.state = .closing ∧ ∀ e ∈ s.host.queue, e.tag = none) ∧
        (∀ c, op.kind = .abortAnchor c →
          s.rollback.run = .abort ∧ s.rollback.phase = .close ∧ ∀ e ∈ s.host.queue, e.tag = none)

/-- The order of an epoch's work (chapters 1, 4 and 6): one law over the epoch record, the set, the write queue, the port and
the rollback, together with the order of start-up. -/
def State.workLaw (s : State) : Prop :=
  s.startOrder ∧ s.idleClean ∧ s.reservationsBalance ∧ s.epochBound ∧ s.rollingBackOrder ∧ s.portOrder

/-- What stands for the record of a block an entry without an append of its own writes (R27, R46): an entry of the set for
the block, LOGGED, or PENDING with its record still owed by an entry ahead in the queue. -/
def State.coveredBehind (s : State) (ahead : List QueueEntry) (e : QueueEntry) : Prop :=
  ∃ x ∈ s.loggedSet, x.block = blockOf e.addr ∧
    (x.state = .logged ∨ ∃ o ∈ ahead, o.owes = true ∧ o.append = some { sequence := x.sequence, spill := false })

/-- The write-ahead rule (R46): in the queue, every entry of the epoch either carries its own append or stands behind the
record of its block; and every PENDING entry of the set is owed by one entry of the queue, for that block (R28). -/
def State.writeAheadLaw (s : State) : Prop :=
  s.workLaw ∧
    (∀ ahead e behind, s.host.queue = ahead ++ e :: behind → e.tag ≠ none → e.append = none →
      s.coveredBehind ahead e) ∧
    (s.epoch.state = .opened ∨ s.epoch.state = .doomed ∨ s.epoch.state = .closing →
      ∀ x ∈ s.loggedSet, x.state = .pending →
        ∃ o ∈ s.host.queue, o.owes = true ∧ o.append = some { sequence := x.sequence, spill := false } ∧
          blockOf o.addr = x.block)

/-- In IDLE, the serial is the next serial of the anchor in force while the journal status is FORMATTED (R2, R53, R176);
with it, the journal is UNFORMATTED before READY (R40) and FORMATTING during a FORMAT. -/
def State.serialLaw (s : State) : Prop :=
  s.startOrder ∧
    (s.journal.format ≠ none → s.control.device = .ready ∧ s.journal.status = .formatting) ∧
    (∀ op, s.port.op = some op → op.kind = .formatAnchor → s.journal.format ≠ none) ∧
    (s.control.device ≠ .ready → s.journal.status = .unformatted) ∧
    (s.journal.status = .formatted → s.epoch.state = .idle → s.epoch.serial = s.journal.anchorSerial)

/-- Whether a block is one that a host access or a rollback may write: outside the device area, the live journal area and,
during a FORMAT, the area live when it was taken (R79, R39, R42). -/
def State.hostBlock (s : State) (block : Nat) : Prop :=
  9 ≤ block ∧ s.journal.live.covers block = false ∧ ∀ job, s.journal.format = some job → job.old.covers block = false

/-- No cell in ARMING, MATCH or MISMATCH watches a word of the device area, the live journal area or the old one (R153, R54,
R57); before READY every cell is DISARMED (R151, R175). An armed cell's shadow equals its word in the attached memory
(R158). -/
def State.watchesApart (s : State) : Prop :=
  (∀ i : Fin 8, s.monitors[i].state ≠ .disarmed → s.hostBlock (s.monitors[i].addr.toNat / 16)) ∧
    (s.control.device ≠ .ready → ∀ i : Fin 8, s.monitors[i].state = .disarmed) ∧
    ∀ i : Fin 8, s.monitors[i].state = .matching ∨ s.monitors[i].state = .mismatch →
      s.monitors[i].shadow = readWord s.mem s.monitors[i].addr

/-- The journal locations have their places: a live one with slots and a staged one are valid for use (R39, R54, R91); the
live one has slots where records are written or read (R3, R136); and a FORMAT has slots to clear, from 0 upward, those of
the live location once its step 2 has made the staged one live (R55, R57, R60). -/
def State.locationsPlaced (s : State) : Prop :=
  (s.journal.live.slots ≠ 0 → s.journal.live.validForUse = true) ∧
    (∀ l, s.journal.staged = some l → l.validForUse = true) ∧
    (s.control.device = .recovering ∨ s.journal.status = .formatted ∨ s.epoch.state ≠ .idle →
      s.journal.live.slots ≠ 0) ∧
    ∀ job, s.journal.format = some job →
      (s.journal.staged.getD s.journal.live).slots ≠ 0 ∧ (job.step ≠ .drain → s.journal.staged = none) ∧
        ∀ k, job.step = .slots k → k < s.journal.live.slots.toNat

/-- What waits for the port has its place: queue entries lie where the host may write, and none waits before the
configuration is loaded (R103, R109); a pre-image has 16 words (R43); a record to be restored has 16 words and a block of
the host's (R42, R68); a read in GRANT_WAIT is presented (R100); and while a reset lasts the port is free (R123). -/
def State.waitingPlaced (s : State) : Prop :=
  (∀ e ∈ s.host.queue, s.hostBlock (e.addr.toNat / 16)) ∧
    (s.control.device = .starting → s.host.queue = []) ∧
    (∀ p, s.journal.preimage = some p → p.length = 16) ∧
    (∀ block words, s.rollback.phase = .restore block words →
      block < 65536 ∧ words.length = 16 ∧ s.hostBlock block) ∧
    (s.host.phase = .grantWait → s.lines.presented ≠ none) ∧
    (s.running = false → s.port.op = none)

/-- The extent of an operation in progress lies where its kind puts it (section 7.1): a read writes nothing, and reads the
word, block, slot or copy it is for; the head's word write is that of the head entry; a restore writes its block; slot
writes lie in the live journal area; anchors and configuration copies lie in the device area; and an operation of FORMAT is
that of its step (R58 to R60). -/
def State.extentPlaced (s : State) (op : Operation) : Prop :=
  let inSlot := ∃ k, k < s.journal.live.slots.toNat ∧ op.start = s.journal.live.slotStart k
  match op.kind with
  | .hostRead => op.writes = [] ∧ op.reads = 1 ∧ s.host.phase = .performing ∧
      ∃ r, s.lines.presented = some r ∧ op.start = r.addr
  | .queueWrite => ∃ head rest, s.host.queue = head :: rest ∧ op.start = head.addr ∧ op.reads = 0 ∧
      op.writes = [head.data] ∧ op.lanes = head.lanes
  | .appendRead => op.writes = [] ∧ op.reads = 16 ∧
      ∃ head rest, s.host.queue = head :: rest ∧ op.start = BitVec.ofNat 20 (16 * (head.addr.toNat / 16))
  | .rollbackRead | .scanRead => op.writes = [] ∧ op.reads = 22 ∧ inSlot
  | .appendWrite => op.writes.length = 22 ∧ op.lanes = .both ∧ inSlot
  | .zeroSlot => op.writes.length = 22 ∧ op.lanes = .both ∧
      ∃ old k, s.journal.format = some { old := old, step := .slots k } ∧ op.start = s.journal.live.slotStart k
  | .restore => op.lanes = .both ∧ ∃ block, s.rollback.phase = .restore block op.writes ∧
      op.start = BitVec.ofNat 20 (16 * block)
  | .commitAnchor c | .abortAnchor c | .recoveryAnchor c =>
      op.writes.length = 8 ∧ op.lanes = .both ∧ op.start = c.anchorStart
  | .zeroAnchor c => op.writes.length = 8 ∧ op.lanes = .both ∧ op.start = c.anchorStart ∧
      ∃ job, s.journal.format = some job ∧ (job.step = .zeroFirst ∨ job.step = .zeroSecond)
  | .formatAnchor => op.writes.length = 8 ∧ op.lanes = .both ∧ op.start = 128 ∧
      ∃ job, s.journal.format = some job ∧ job.step = .anchor
  | .formatConfig c => op.writes.length = 64 ∧ op.lanes = .both ∧ op.start = c.configStart ∧
      ∃ job, s.journal.format = some job ∧ job.step = .config
  | .saveConfig c => op.writes.length = 64 ∧ op.lanes = .both ∧ op.start = c.configStart
  | .arming i wanted => op.writes = [] ∧ op.reads = 1 ∧
      (wanted = true → s.monitors[i].state = .arming ∧ op.start = s.monitors[i].addr)
  | .configRead c => op.writes = [] ∧ op.reads = 64 ∧ op.start = c.configStart
  | .anchorRead c => op.writes = [] ∧ op.reads = 8 ∧ op.start = c.anchorStart

/-- The law of R158: every armed cell's shadow equals its word, no cell that is not DISARMED watches the device area or a
journal area, and every operation in progress lies where its kind puts it; with the order of work that keeps it so. -/
def State.shadowLaw (s : State) : Prop :=
  s.memoryWf ∧ s.workLaw ∧ s.serialLaw ∧ s.watchesApart ∧ s.locationsPlaced ∧ s.waitingPlaced ∧
    ∀ op, s.port.op = some op → s.extentPlaced op

/-- The lines: while the part runs, the hold flag follows PFW (R146) and the frame is in phase IDLE exactly while chip
select is high (R170). -/
def State.linesLaw (s : State) : Prop :=
  s.running = true →
    s.control.hold = s.lines.pfw ∧ (s.frame.phase = .idle ↔ s.lines.csLow = false)

/-- While a reset lasts every block holds its reset value (R134); what a part without supply holds is the model's (log
22). -/
def State.heldInReset (s : State) : Prop :=
  s.running = false →
    s.epoch = {} ∧ s.loggedSet = [] ∧ s.journal = {} ∧ s.rollback = {} ∧ s.regions = {} ∧ s.host = {} ∧
      s.port = {} ∧ s.monitors = Vector.replicate 8 {} ∧ s.events = {} ∧ s.frame = {} ∧
      s.control = { hold := s.control.hold, cause := s.control.cause }

end Sys2Proof.Machine
end

