-- ==== Sys2Proof/Certificates/Slice0/Obligations.lean ====
section
/-! DEFINITION. The statements for the provers. Each says, from the numbered rules, what a command does from every state
that meets its premises; an equation of a whole next state is the command's frame as well. A management row is read as its
frame up to the decision point (log 4), which the premise `canDecide` says can be reached. -/

section
open Sys2Proof Sys2Proof.Machine

/-! ## The queue, the frames and the gates -/

/-- A step runs the command at the front of the queue of waiting commands on the state with the queue's rest (the model's own
queue: log 6). On an empty queue it is one pulse of the management clock before the last of a byte, which raises the bit
count of a frame in course (R170; that the empty queue stands for it is the model's choice, log 16), and else it idles. -/
def Obligations.StepRunsFrontCommand : Prop :=
  (∀ (c : Instr) (rest : List Instr) (s : State),
    s.pending = c :: rest → step s = exec c { s with pending := rest }) ∧
  ∀ s : State, s.pending = [] →
    (s.running = true → s.frame.phase ≠ .idle → s.frame.phase ≠ .waitRise → s.frame.bits < 7 →
      step s = .next { s with frame.bits := s.frame.bits + 1 }) ∧
    (s.running = false ∨ s.frame.phase = .idle ∨ s.frame.phase = .waitRise ∨ 7 ≤ s.frame.bits → step s = .next s)

/-- Every command from every state answers a next state, and none touches the queue of waiting commands. -/
def Obligations.EveryCommandAnswersNext : Prop :=
  ∀ (i : Instr) (s : State), ∃ t, exec i s = .next t ∧ t.pending = s.pending

/-- Reading a frame and writing one agree both ways (chapter 12.2): a well-formed command decodes from its frame, and a
frame that decodes is the frame of the command it decodes to, which is well-formed. -/
def Obligations.FramesDecodeBothWays : Prop :=
  (∀ i, Laws.FrameRoundTrip.Statement i) ∧
  ∀ code args i, decodeFrame code args = some i → frameOf i = some (code, args) ∧ i.wellFormed = true

/-- A management command as a row is its frame clocked byte by byte up to the decision point, from chip select high
(R171, R172; the row's reading as a frame up to its decision point is the model's, log 4). -/
def Obligations.RowIsItsFrameByteByByte : Prop :=
  ∀ (i : Instr) (code : Byte) (args : List Byte) (s : State),
    frameOf i = some (code, args) → i.wellFormed = true → s.running = true → s.lines.csLow = false →
    s.frame.phase = .idle →
    runAll (frameRows code args) s = exec i s

/-- Before READY every command but the ten that the device-state gate passes is refused with STATE, and while the hold flag
is set the six that the hold gate names are (R147, R175); nothing but the frame record and its line changes. -/
def Obligations.GatesRefuseWithState : Prop :=
  ∀ (i : Instr) (code : Byte) (args : List Byte) (s : State),
    frameOf i = some (code, args) → i.wellFormed = true → s.canDecide code args = true →
    (s.control.device ≠ .ready ∧
        code ∈ ([0x20, 0x21, 0x22, 0x23, 0x30, 0x31, 0x40, 0x42, 0x43, 0x50, 0x51] : List Byte) ∨
      s.control.hold = true ∧ code ∈ ([0x20, 0x21, 0x22, 0x31, 0x43, 0x50] : List Byte)) →
    exec i s = .next (s.decided code args .state [])

/-- A frame whose code is no command code is decided with BAD_COMMAND, as a row and byte by byte; a frame of a known
command with another number of arguments than its own is decided with BAD_LENGTH at the byte that is its decision point
(R172). Neither reaches a block. -/
def Obligations.BadFramesReachNoBlock : Prop :=
  (∀ (code : Byte) (args : List Byte) (s : State),
    Command.ofCode code = none → s.canDecide code args = true →
    exec (.badCommandFrame code args) s = .next (s.decided code args .badCommand [])) ∧
  (∀ (c : Command) (s : State), s.running = true → s.frame.phase = .count → s.frame.code = c.code → c.argCount ≠ 0 →
    exec (.managementByteComplete 0) s = .next (s.decided c.code [] .badLength [])) ∧
  ∀ (code byte : Byte) (s : State), s.running = true → s.frame.phase = .arguments → s.frame.code = code →
    s.frame.args.length + 1 = s.frame.count.toNat →
    (Command.ofCode code = none →
      exec (.managementByteComplete byte) s = .next (s.decided code (s.frame.args ++ [byte]) .badCommand [])) ∧
    ∀ c, Command.ofCode code = some c → c.argCount ≠ s.frame.count.toNat →
      exec (.managementByteComplete byte) s = .next (s.decided code (s.frame.args ++ [byte]) .badLength [])

/-- A management command decided with a status that is neither OK nor ACCEPTED carries no reply and changes nothing but the
frame record and its line (R174). A command taken answers OK, or ACCEPTED where long work follows, with its fixed reply
length M (chapter 12.2); COMMIT, ABORT, FORMAT, SAVE_CONFIG and ARM_MONITOR alone answer ACCEPTED. -/
def Obligations.DecidedFramesHaveTheirReply : Prop :=
  (∀ (i : Instr) (code : Byte) (args : List Byte) (s t : State) (st : Status),
    frameOf i = some (code, args) → s.canDecide code args = true → exec i s = .next t →
    t.frame.outcome = some st → st ≠ .ok → st ≠ .accepted →
    t = s.decided code args st []) ∧
  (∀ (i : Instr) (code : Byte) (args : List Byte) (s t : State),
    frameOf i = some (code, args) → i.wellFormed = true → s.canDecide code args = true → exec i s = .next t →
    (t.frame.outcome = some .ok ∨ t.frame.outcome = some .accepted) →
    (code, t.frame.outcome, t.frame.reply.length) ∈
      ([(0x10, some .ok, 34), (0x11, some .ok, 6), (0x12, some .ok, 3), (0x13, some .ok, 6), (0x14, some .ok, 12),
        (0x15, some .ok, 12), (0x20, some .ok, 4), (0x21, some .accepted, 0), (0x22, some .accepted, 0),
        (0x23, some .ok, 0), (0x24, some .ok, 50), (0x30, some .ok, 8), (0x31, some .accepted, 0),
        (0x40, some .ok, 1), (0x41, some .ok, 26), (0x42, some .ok, 1), (0x43, some .accepted, 5),
        (0x50, some .accepted, 0), (0x51, some .ok, 0), (0x52, some .ok, 14), (0x7E, some .ok, 0)] :
        List (Byte × Option Status × Nat)))

/-- The bytes of a frame that decide nothing (R171): the code, a count above 0, each argument before the last, and after the
decision point the turnaround, the status, the reply count, each reply byte in turn, and the trailing bytes; the bit count
returns to 0 with each. A byte outside a frame, or while a reset lasts, changes nothing. What the part drives on data out
meanwhile: 0x00 up to the turnaround, in the trailing bytes and in WAIT_RISE, then the status, the reply count and the
reply, most significant bit first as the bit count rises; in IDLE and while a reset lasts the line is released (R170, R171;
that the bit count places the bit on the line is the model's reading, log 16). -/
def Obligations.FrameBytesAdvance : Prop :=
  ∀ (byte : Byte) (s : State),
    (s.running = false ∨ s.frame.phase = .idle ∨ s.frame.phase = .waitRise →
      exec (.managementByteComplete byte) s = .next s) ∧
    (s.running = false ∨ s.frame.phase = .idle → s.dataOut = none ∧ s.dataOutBit = none) ∧
    (∀ b, s.dataOut = some b → s.dataOutBit = some (decide (b.toNat / 2 ^ (7 - s.frame.bits) % 2 = 1))) ∧
    (s.running = true →
      (s.frame.phase = .waitRise ∨ s.frame.phase = .code ∨ s.frame.phase = .count ∨ s.frame.phase = .arguments ∨
          s.frame.phase = .trailing →
        s.dataOut = some 0) ∧
      (s.frame.phase = .trailing → exec (.managementByteComplete byte) s = .next { s with frame.bits := 0 }) ∧
      (s.frame.phase = .code →
        exec (.managementByteComplete byte) s =
          .next { s with frame := { s.frame with code := byte, phase := .count, bits := 0 } }) ∧
      (s.frame.phase = .count → byte ≠ 0 →
        exec (.managementByteComplete byte) s =
          .next { s with frame := { s.frame with count := byte, args := [], phase := .arguments, bits := 0 } }) ∧
      (s.frame.phase = .arguments → s.frame.args.length + 1 < s.frame.count.toNat →
        exec (.managementByteComplete byte) s =
          .next { s with frame := { s.frame with args := s.frame.args ++ [byte], bits := 0 } }) ∧
      (s.frame.phase = .turnaround →
        s.dataOut = some 0 ∧
          exec (.managementByteComplete byte) s = .next { s with frame := { s.frame with phase := .status, bits := 0 } }) ∧
      (∀ st, s.frame.phase = .status → s.frame.outcome = some st →
        s.dataOut = some st.code ∧
          exec (.managementByteComplete byte) s =
            .next { s with frame := { s.frame with phase := .replyCount, bits := 0 } }) ∧
      (s.frame.phase = .replyCount →
        s.dataOut = some (BitVec.ofNat 8 s.frame.reply.length) ∧
          exec (.managementByteComplete byte) s =
            .next
              { s with
                frame :=
                  { s.frame with
                    phase := if s.frame.reply = [] then .trailing else .reply
                    bits := 0 } }) ∧
      ∀ b, s.frame.phase = .reply → s.frame.reply[s.frame.index]? = some b →
        s.dataOut = some b ∧
          exec (.managementByteComplete byte) s =
            .next
              { s with
                frame :=
                  { s.frame with
                    index := s.frame.index + 1
                    phase := if s.frame.index + 1 < s.frame.reply.length then .reply else .trailing
                    bits := 0 } })

/-- A fall of chip select in phase IDLE begins a frame; a rise in any phase clears the frame record (R170, R173), and after a
taken RESTART it is the reset of cause COMMAND, which ends at once (R134, R135): every block at its reset value, the hold
flag as PFW stands (R133), the operation in progress cut short (R132), a request presented taken afresh (R100) and kept
until then (log 13), the answer lines released (log 12). An edge while a reset lasts moves only the line. -/
def Obligations.ChipSelectBoundsTheFrame : Prop :=
  (∀ s : State, s.lines.csLow = false → s.running = true → s.frame.phase = .idle →
    exec .chipSelectFall s = .next { s with frame := { phase := .code }, lines.csLow := true }) ∧
  (∀ s : State, s.lines.csLow = false → s.running = false ∨ s.frame.phase ≠ .idle →
    exec .chipSelectFall s = .next { s with lines.csLow := true }) ∧
  (∀ s : State, s.lines.csLow = true → s.running = true → s.control.restartPending = false →
    exec .chipSelectRise s = .next { s with frame := {}, lines.csLow := false }) ∧
  (∀ s : State, s.lines.csLow = true → s.running = false →
    exec .chipSelectRise s = .next { s with lines.csLow := false }) ∧
  ∀ s : State, s.lines.csLow = true → s.running = true → s.control.restartPending = true →
    exec .chipSelectRise s =
      .next
        ({ State.reset with
          control := { hold := s.lines.pfw, cause := .command }
          lines := { s.lines with csLow := false, ready := false, error := false, hostData := 0 }
          mem := s.cutOperation.mem, freeCount := s.cutOperation.freeCount, pending := s.pending }.classifiedIf true)

/-! ## The commands that report -/

/-- STATUS is taken in every device state and whatever the hold flag, changes nothing, and replies with the 34 bytes of
chapter 12.3 (R176, R24). -/
def Obligations.StatusReportsEveryField : Prop :=
  ∀ s : State, s.canDecide 0x10 [] = true →
    exec .status s =
      .next
        (s.decided 0x10 [] .ok
          ([s.control.device.code, if s.control.hold then 1 else 0, s.journal.status.code, s.epoch.state.code] ++
            bytes32 s.epoch.serial ++ bytes16 (BitVec.ofNat 16 s.epoch.reserved) ++
            bytes16 (BitVec.ofNat 16 s.epoch.written) ++ bytes16 (BitVec.ofNat 16 s.epoch.spills) ++
            bytes16 s.epoch.ageElapsed ++
            [BitVec.ofNat 8 s.loggedSet.length, BitVec.ofNat 8 s.host.queue.length,
              if s.regions.staged = none then 0 else 1, s.control.cause.code] ++
            bytes16 (BitVec.ofNat 16 s.control.lastN) ++ bytes16 (BitVec.ofNat 16 s.control.lastDamage) ++
            bytes16 (BitVec.ofNat 16 s.rollback.lastDamage) ++ bytes32 s.journal.anchorSerial ++
            bytes32 s.regions.generation))

/-- READ_EVENTS and READ_FAULT are taken in every device state and whatever the hold flag, reply with the flags and the
enables, and with the fault capture record and the refusal count, as they stand, and change nothing (R165, R168); an empty
record reads as zeros (R167). CLEAR_EVENTS, SET_EVENT_ENABLES and CLEAR_FAULT are never refused with STATE. -/
def Obligations.EventReadsReplyAsTheyStand : Prop :=
  (∀ s : State, s.canDecide 0x11 [] = true →
    exec .readEvents s =
      .next (s.decided 0x11 [] .ok (bytes24 (s.events.flags.setWidth 24) ++ bytes24 (s.events.enables.setWidth 24)))) ∧
  (∀ s : State, s.canDecide 0x14 [] = true → s.events.fault = none →
    exec .readFault s =
      .next (s.decided 0x14 [] .ok [0, 0, 0, 0, 0, 0, 0, 0, 0, 0, 0, BitVec.ofNat 8 s.events.refusals])) ∧
  (∀ (s : State) (f : FaultRecord), s.canDecide 0x14 [] = true → s.events.fault = some f →
    exec .readFault s =
      .next
        (s.decided 0x14 [] .ok
          ([1, f.kind.code] ++ bytes24 (f.addr.setWidth 24) ++ [lanesCode f.lanes, f.reason.code] ++
            bytes32 f.serial ++ [BitVec.ofNat 8 s.events.refusals]))) ∧
  ∀ (s t : State) (i : Instr) (mask : BitVec 24), i = .clearEvents mask ∨ i = .setEventEnables mask ∨ i = .clearFault →
    s.canDecide ((frameOf i).getD (0, [])).1 ((frameOf i).getD (0, [])).2 = true → exec i s = .next t →
    t.frame.outcome = if i ≠ .clearFault ∧ 4194304 ≤ mask.toNat then some .badArgument else some .ok

/-- READ_SET refuses a start index above 64 with BAD_ARGUMENT, and else replies with 50 bytes: the epoch state, serial,
occupancy, spill count, start index and entry count, and at most 8 entries from the start index upward, the positions
beyond the count 0 (R36, R180). GET_REGION and GET_MONITOR refuse an index above the last with BAD_ARGUMENT, and else reply
with every field of the descriptor and the defaults, live and staged, and of the cell (R87, R89, R161). -/
def Obligations.IndexedReadsReplyEveryField : Prop :=
  (∀ (start : Byte) (s : State), s.canDecide 0x24 [start] = true →
    (64 < start.toNat → exec (.readSet start) s = .next (s.decided 0x24 [start] .badArgument [])) ∧
    (start.toNat ≤ 64 →
      exec (.readSet start) s =
        .next
          (s.decided 0x24 [start] .ok
            ([s.epoch.state.code] ++ bytes32 s.epoch.serial ++
              [BitVec.ofNat 8 s.loggedSet.length] ++ bytes16 (BitVec.ofNat 16 s.epoch.spills) ++
              [start, BitVec.ofNat 8 (min 8 (s.loggedSet.length - start.toNat))] ++
              ((List.range 8).flatMap fun j =>
                match s.loggedSet[start.toNat + j]? with
                | some e =>
                  bytes16 (BitVec.ofNat 16 e.block) ++ [if e.state = .pending then 0 else 1] ++
                    bytes16 (BitVec.ofNat 16 e.sequence)
                | none => [0, 0, 0, 0, 0]))))) ∧
  ((∀ (index : Byte) (s : State), s.canDecide 0x41 [index] = true →
    (15 < index.toNat → exec (.getRegion index) s = .next (s.decided 0x41 [index] .badArgument [])) ∧
    ∀ h : index.toNat < 16, ∀ staged : RegionTable,
      s.regions.staged = some staged ∨ s.regions.staged = none ∧ staged = s.regions.live →
      exec (.getRegion index) s =
        .next
          (s.decided 0x41 [index] .ok
            ([index] ++ s.regions.live.descs[index.toNat].bytes ++ [if s.regions.staged = none then 0 else 1] ++
              staged.descs[index.toNat].bytes ++ s.regions.live.defaults.bytes ++ staged.defaults.bytes))) ∧
  ∀ (index : Byte) (s : State), s.canDecide 0x52 [index] = true →
    (7 < index.toNat → exec (.getMonitor index) s = .next (s.decided 0x52 [index] .badArgument [])) ∧
    ∀ h : index.toNat < 8,
      exec (.getMonitor index) s =
        .next
          (s.decided 0x52 [index] .ok
            ([index, s.monitors[index.toNat].state.code] ++ bytes24 (s.monitors[index.toNat].addr.setWidth 24) ++
              bytes16 s.monitors[index.toNat].mask ++ bytes16 s.monitors[index.toNat].compare ++
              [s.monitors[index.toNat].trigger.code] ++ bytes16 s.monitors[index.toNat].shadow ++
              [BitVec.ofNat 8 s.monitors[index.toNat].count, s.monitors[index.toNat].lastSource.code])))

/-! ## Events and the restart -/

/-- CLEAR_EVENTS clears the flags of its mask and replies with the flags before; SET_EVENT_ENABLES replaces the enables;
each refuses a mask with a 1 in position 22 or 23 (R163, R164). CLEAR_FAULT replies as READ_FAULT and empties the record
and the count (R169). RESTART makes the restart pending (R135). Nothing else of the state changes. Raising a flag sets the
bit at its position of chapter 12.2 and leaves the others and the enables (R162); ATTN is asserted exactly when a flag and
its enable are both set (R166). -/
def Obligations.EventCommandsActOnTheirFields : Prop :=
  ((∀ (mask : BitVec 24) (s : State), s.canDecide 0x12 (bytes24 mask) = true →
    exec (.clearEvents mask) s =
      .next
        (if 4194304 ≤ mask.toNat then s.decided 0x12 (bytes24 mask) .badArgument []
        else
          { s with events.flags := s.events.flags &&& ~~~(mask.setWidth 22) }.decided 0x12 (bytes24 mask) .ok
            (bytes24 (s.events.flags.setWidth 24)))) ∧
  (∀ (mask : BitVec 24) (s : State), s.canDecide 0x13 (bytes24 mask) = true →
    exec (.setEventEnables mask) s =
      .next
        (if 4194304 ≤ mask.toNat then s.decided 0x13 (bytes24 mask) .badArgument []
        else
          { s with events.enables := mask.setWidth 22 }.decided 0x13 (bytes24 mask) .ok
            (bytes24 mask ++ bytes24 (s.events.flags.setWidth 24)))) ∧
  (∀ s : State, s.canDecide 0x15 [] = true →
    ∃ reply, exec .readFault { s with frame := {} } = .next (s.decided 0x14 [] .ok reply) ∧
      exec .clearFault s =
        .next ({ s with events := { s.events with fault := none, refusals := 0 } }.decided 0x15 [] .ok reply)) ∧
  ∀ s : State, s.canDecide 0x7E [] = true →
    exec .restart s = .next ({ s with control.restartPending := true }.decided 0x7E [] .ok [])) ∧
  ((∀ (s : State) (f : EventFlag) (k : Nat), k < 22 →
    (s.raise f).events.flags.getLsbD k = (s.events.flags.getLsbD k || decide (k = f.position))) ∧
  (∀ (s : State) (f : EventFlag), s.raise f = { s with events.flags := (s.raise f).events.flags }) ∧
  ∀ s : State, s.attn = true ↔ ∃ k, k < 22 ∧ s.events.flags.getLsbD k = true ∧ s.events.enables.getLsbD k = true)

/-! ## The epoch -/

/-- BEGIN follows its checks in order, and taken it opens an epoch with the next serial, zero counters and a timer that runs
if the live age limit is not 0; it touches no memory, and a SAVE_CONFIG in progress does not stop it (R3). -/
def Obligations.BeginFollowsItsChecks : Prop :=
  ∀ s : State, s.canDecide 0x20 [] = true →
    exec .begin s =
      .next
        (if s.control.device ≠ .ready ∨ s.control.hold = true then s.decided 0x20 [] .state []
        else if s.epoch.state ≠ .idle then s.decided 0x20 [] .state []
        else if s.journal.format ≠ none then s.decided 0x20 [] .busy []
        else if s.journal.status ≠ .formatted then s.decided 0x20 [] .notFormatted []
        else if s.epoch.serial = 4294967295 then s.decided 0x20 [] .exhausted []
        else
          { s with
            epoch :=
              { state := .opened, serial := s.epoch.serial, reserved := 0, written := 0, spills := 0, ageElapsed := 0
                ageRunning := decide (1 ≤ s.regions.live.defaults.ageLimit.toNat) } }.decided 0x20 [] .ok
            (bytes32 s.epoch.serial))

/-- COMMIT in OPEN moves the epoch to CLOSING and stops its timer; DOOMED refuses it with DOOMED, the other states with
STATE, and a refusal changes no field (R10). -/
def Obligations.CommitClosesAnOpenEpoch : Prop :=
  ∀ s : State, s.canDecide 0x21 [] = true → s.control.device = .ready → s.control.hold = false →
    (s.epoch.state = .opened →
      exec .commit s =
        .next ({ s with epoch := { s.epoch with state := .closing, ageRunning := false } }.decided 0x21 [] .accepted [])) ∧
    (s.epoch.state = .doomed → exec .commit s = .next (s.decided 0x21 [] .doomed [])) ∧
    (s.epoch.state = .idle ∨ s.epoch.state = .closing ∨ s.epoch.state = .rollingBack →
      exec .commit s = .next (s.decided 0x21 [] .state []))

/-- ABORT in OPEN or DOOMED moves the epoch to ROLLING_BACK, cancels its queue entries but for a head under way, starts the
rollback unless an append is in flight, and classifies the host's request afresh where a hold or a GRANT_WAIT ends; in the
other states it is refused with STATE (R14, R15, R113, R117). FORMAT is never in progress then (R4). What the cancellation
keeps: every entry of another tag, in order, and of the epoch's none but a head whose append or word write is under way. A
head's word write under way does not keep the run waiting, as log 10 reads it. -/
def Obligations.AbortCancelsAndRollsBack : Prop :=
  (∀ s : State, s.canDecide 0x22 [] = true → s.control.device = .ready → s.control.hold = false →
    ((s.epoch.state = .opened ∨ s.epoch.state = .doomed) → s.journal.format = none →
      exec .abort s = .next (s.aborted.decided 0x22 [] .accepted [])) ∧
    (s.epoch.state = .idle ∨ s.epoch.state = .closing ∨ s.epoch.state = .rollingBack →
      exec .abort s = .next (s.decided 0x22 [] .state []))) ∧
  (∀ s : State,
    s.keptQueue.filter (fun e => decide (e.tag ≠ some s.epoch.serial)) =
        s.host.queue.filter (fun e => decide (e.tag ≠ some s.epoch.serial)) ∧
      List.Sublist s.keptQueue s.host.queue ∧
      ∀ e ∈ s.keptQueue, e.tag = some s.epoch.serial →
        s.host.queue.head? = some e ∧ s.keptQueue.head? = some e ∧
          (e.progress = .appendInFlight ∨ e.progress = .writeInProgress))

/-- RENEW in OPEN or DOOMED restarts the timer from 0, whatever the hold flag, with the timer running if the live age limit
is not 0; in the other states it is refused with STATE (R17). -/
def Obligations.RenewRestartsTheTimer : Prop :=
  ∀ s : State, s.canDecide 0x23 [] = true → s.control.device = .ready →
    ((s.epoch.state = .opened ∨ s.epoch.state = .doomed) →
      exec .renew s =
        .next
          ({ s with
            epoch :=
              { s.epoch with
                ageElapsed := 0
                ageRunning := decide (1 ≤ s.regions.live.defaults.ageLimit.toNat) } }.decided 0x23 [] .ok [])) ∧
    (s.epoch.state = .idle ∨ s.epoch.state = .closing ∨ s.epoch.state = .rollingBack →
      exec .renew s = .next (s.decided 0x23 [] .state []))

/-- A tick raises age elapsed by 1 while the state is OPEN or DOOMED, age running is yes and the hold flag is clear, and on
any other tick changes nothing; the tick that makes age elapsed equal to the live age limit is the expiry (R18, R19,
R20): AGE_EXPIRED, the timer stopped at the limit, and under policy ABORT all that ABORT does. Under a live age limit of 1
that is the first tick after a RENEW too, which R20's table has otherwise (the model's choice, log 30). AGE_EXPIRY is that expiry of
a timer that counts and whose next tick reaches the limit, or that has reached it; at any other moment, with the timer
counting or not, it changes nothing (the row's reading beside AGE_TICK is the model's, log 9). -/
def Obligations.TheAgeTimerCountsAndExpires : Prop :=
  (∀ s : State,
    (¬((s.epoch.state = .opened ∨ s.epoch.state = .doomed) ∧ s.epoch.ageRunning = true ∧ s.control.hold = false) →
      exec .ageTick s = .next s) ∧
    ((s.epoch.state = .opened ∨ s.epoch.state = .doomed) → s.epoch.ageRunning = true → s.control.hold = false →
      (s.epoch.ageElapsed + 1 ≠ s.regions.live.defaults.ageLimit →
        exec .ageTick s = .next { s with epoch.ageElapsed := s.epoch.ageElapsed + 1 }) ∧
      (s.epoch.ageElapsed + 1 = s.regions.live.defaults.ageLimit → s.regions.live.defaults.agePolicy = .notify →
        exec .ageTick s =
          .next
            { s with
              epoch := { s.epoch with ageElapsed := s.regions.live.defaults.ageLimit, ageRunning := false }
              events.flags := s.events.flags ||| EventFlag.ageExpired.mask }) ∧
      (s.epoch.ageElapsed + 1 = s.regions.live.defaults.ageLimit → s.regions.live.defaults.agePolicy = .abort →
        s.journal.format = none →
        exec .ageTick s =
          .next
            { s with
              epoch := { s.epoch with ageElapsed := s.regions.live.defaults.ageLimit, ageRunning := false }
              events.flags := s.events.flags ||| EventFlag.ageExpired.mask }.aborted))) ∧
  (∀ s : State,
    ¬((s.epoch.state = .opened ∨ s.epoch.state = .doomed) ∧ s.epoch.ageRunning = true ∧ s.control.hold = false) →
    exec .ageExpiry s = .next s) ∧
  (∀ s : State,
    (s.epoch.state = .opened ∨ s.epoch.state = .doomed) → s.epoch.ageRunning = true → s.control.hold = false →
    (s.epoch.ageElapsed + 1 = s.regions.live.defaults.ageLimit → exec .ageExpiry s = exec .ageTick s) ∧
    ((s.epoch.ageElapsed + 1 = s.regions.live.defaults.ageLimit ∨
        s.epoch.ageElapsed = s.regions.live.defaults.ageLimit) →
      s.regions.live.defaults.agePolicy = .notify →
      exec .ageExpiry s =
        .next
          { s with
            epoch := { s.epoch with ageElapsed := s.regions.live.defaults.ageLimit, ageRunning := false }
            events.flags := s.events.flags ||| EventFlag.ageExpired.mask }) ∧
    ((s.epoch.ageElapsed + 1 = s.regions.live.defaults.ageLimit ∨
        s.epoch.ageElapsed = s.regions.live.defaults.ageLimit) →
      s.regions.live.defaults.agePolicy = .abort → s.journal.format = none →
      exec .ageExpiry s =
        .next
          { s with
            epoch := { s.epoch with ageElapsed := s.regions.live.defaults.ageLimit, ageRunning := false }
            events.flags := s.events.flags ||| EventFlag.ageExpired.mask }.aborted) ∧
    (s.epoch.ageElapsed + 1 ≠ s.regions.live.defaults.ageLimit →
      s.epoch.ageElapsed ≠ s.regions.live.defaults.ageLimit → exec .ageExpiry s = .next s))

/-- The completion of the commit anchor write is the commit point: the anchor written is in force with the serial + 1 and the
tail past the epoch's records, COMMIT_DONE is set, the epoch is at IDLE with the serial + 1, zero counters and an empty
set, staged edits are live, and a request held with EPOCH is classified afresh (R12, R13, R51, R52). The abort anchor's
does the same with ABORT_DONE, the rollback engine back at run NONE and its damage counts kept (R16, R71). -/
def Obligations.EpochAnchorsBringIdle : Prop :=
  (∀ (s : State) (op : Operation) (c : Copy), s.port.op = some op → op.kind = .commitAnchor c →
    exec .commitAnchorWriteComplete s =
      .next
        ({ s with
          port.op := none
          mem := writeWords s.mem op.start op.lanes op.writes
          journal :=
            { s.journal with
              inForce := some c
              anchorSerial := s.epoch.serial + 1
              tail := (s.journal.tail + s.epoch.written) % s.journal.live.slots.toNat }
          events.flags := s.events.flags ||| EventFlag.commitDone.mask }.atIdle.classifiedIf
            (s.host.phase == HostPhase.held .epoch))) ∧
  (∀ (s : State) (op : Operation) (c : Copy), s.port.op = some op → op.kind = .abortAnchor c →
    exec .abortAnchorWriteComplete s =
      .next
        ({ s with
          port.op := none
          mem := writeWords s.mem op.start op.lanes op.writes
          journal :=
            { s.journal with
              inForce := some c
              anchorSerial := s.epoch.serial + 1
              tail := (s.journal.tail + s.epoch.written) % s.journal.live.slots.toNat }
          rollback := { s.rollback with run := .none, phase := .idle, remaining := 0 }
          events.flags := s.events.flags ||| EventFlag.abortDone.mask }.atIdle.classifiedIf
            (s.host.phase == HostPhase.held .epoch)))

/-! ## The host's requests -/

/-- The lookup of R79 under the law of R82: the device area first, then the journal areas, then the one descriptor that
covers the block, then the default class, a FORMAT in progress or not. -/
def Obligations.LookupAnswersInOrder : Prop :=
  ∀ (s : State) (addr : WordAddr),
    (addr.toNat < 144 → s.lookup addr = .deviceArea) ∧
    (144 ≤ addr.toNat → s.journal.live.covers (addr.toNat / 16) = true → s.lookup addr = .journalArea) ∧
    (144 ≤ addr.toNat → s.journal.live.covers (addr.toNat / 16) = false →
      (∀ job, s.journal.format = some job →
        job.old.covers (addr.toNat / 16) = false ∧
          (s.journal.staged.getD s.journal.live).covers (addr.toNat / 16) = false) →
      (∀ i : Fin 16, s.regions.live.lawful s.journal.live = true → s.regions.live.descs[i].covers (addr.toNat / 16) = true →
        s.lookup addr =
          .region (.region i) s.regions.live.descs[i].cls s.regions.live.descs[i].width
            s.regions.live.descs[i].policy) ∧
      ((∀ i : Fin 16, s.regions.live.descs[i].covers (addr.toNat / 16) = false) →
        (s.regions.live.defaults.cls = .openDefault → s.lookup addr = .region .byDefault .openRegion .any .pass) ∧
        (s.regions.live.defaults.cls = .refuse → s.lookup addr = .unmapped))) ∧
    ∀ job, s.journal.format = some job → 144 ≤ addr.toNat →
      (job.old.covers (addr.toNat / 16) = true ∨
        (s.journal.staged.getD s.journal.live).covers (addr.toNat / 16) = true) →
      s.lookup addr = .journalArea

/-- The first and the fourth step of write acceptance hold the write, with the first reason that applies: STARTING, POWER,
FORMAT_DRAIN without a lookup; then QUEUE_FULL, RECOVERY and EPOCH after it (R103, R105); a held write touches nothing but
the request and its phase. The second, third and fifth step refuse it, each with its reason (R104, R107, R109): nothing is
queued, the refusal is offered to the Event Unit, and the host error line answers. What the answer lines hold while a request
waits is the model's (log 12). -/
def Obligations.WritesHeldOrRefusedWithTheirReason : Prop :=
  (∀ (s : State) (addr : WordAddr) (lanes : Lanes) (data : Word) (t : State),
    s.running = true → s.lines.presented = none →
    t = s.presenting { kind := .write, addr := addr, lanes := lanes, data := data } →
    (s.control.device = .starting → exec (.hostWrite addr lanes data) s = .next { t with host.phase := .held .starting }) ∧
    (s.control.device ≠ .starting → s.control.hold = true →
      exec (.hostWrite addr lanes data) s = .next { t with host.phase := .held .power }) ∧
    (∀ job, s.control.device ≠ .starting → s.control.hold = false → s.journal.format = some job → job.step = .drain →
      exec (.hostWrite addr lanes data) s = .next { t with host.phase := .held .formatDrain }) ∧
    ∀ index cls width policy, s.admitsWrite addr lanes index cls width policy →
      (8 ≤ s.host.queue.length →
        exec (.hostWrite addr lanes data) s = .next { t with host.phase := .held .queueFull }) ∧
      (s.host.queue.length < 8 → cls = .journaled → s.control.device = .recovering →
        exec (.hostWrite addr lanes data) s = .next { t with host.phase := .held .recovery }) ∧
      (s.host.queue.length < 8 → cls = .journaled → s.control.device = .ready →
        s.epoch.state = .closing ∨ s.epoch.state = .rollingBack →
        exec (.hostWrite addr lanes data) s = .next { t with host.phase := .held .epoch })) ∧
  (∀ (s : State) (addr : WordAddr) (lanes : Lanes) (data : Word),
    (s.running = true → s.lines.presented = none → s.control.device ≠ .starting → s.control.hold = false →
      s.draining = false →
      (s.lookup addr = .deviceArea →
        exec (.hostWrite addr lanes data) s = .next (s.refused .write addr lanes .deviceArea s.refusalSerial)) ∧
      (s.lookup addr = .journalArea →
        exec (.hostWrite addr lanes data) s = .next (s.refused .write addr lanes .journalArea s.refusalSerial)) ∧
      (s.lookup addr = .unmapped →
        exec (.hostWrite addr lanes data) s = .next (s.refused .write addr lanes .unmapped s.refusalSerial)) ∧
      ∀ index cls width policy, s.lookup addr = .region index cls width policy →
        (cls = .guarded →
          exec (.hostWrite addr lanes data) s = .next (s.refused .write addr lanes .guarded s.refusalSerial)) ∧
        (cls ≠ .guarded → width = .wordOnly → lanes = .low ∨ lanes = .high →
          exec (.hostWrite addr lanes data) s = .next (s.refused .write addr lanes .width s.refusalSerial))) ∧
    ∀ index width policy, s.admitsWrite addr lanes index .journaled width policy → s.host.queue.length < 8 →
      s.control.device = .ready →
      (s.epoch.state = .idle → policy = .refuse →
        exec (.hostWrite addr lanes data) s = .next (s.refused .write addr lanes .outsideEpoch 0)) ∧
      (s.epoch.state = .doomed →
        exec (.hostWrite addr lanes data) s = .next (s.refused .write addr lanes .doomed s.epoch.serial)))

/-- A write to an OPEN region, or to a JOURNALED one in IDLE under policy PASS, is completed at once and queued with tag NONE
and no append (R106, R107, R110); one that selects no lane is completed and queues nothing (R104). That the data lines then hold
0x0000 is the model's (log 12). -/
def Obligations.PlainWritesArePosted : Prop :=
  ∀ (s : State) (addr : WordAddr) (lanes : Lanes) (data : Word) (index : RegionIndex) (cls : RegionClass) (width : Width)
    (policy : OutsidePolicy),
    s.admitsWrite addr lanes index cls width policy → s.host.queue.length < 8 →
    cls = .openRegion ∨
      cls = .journaled ∧ s.control.device = .ready ∧ s.epoch.state = .idle ∧ policy = .pass →
    (lanes ≠ .neither →
      exec (.hostWrite addr lanes data) s =
        .next
          (s.queued
            { addr := addr, data := data, lanes := lanes, region := index, tag := none, append := none
              progress := .writeWaiting })) ∧
    (lanes = .neither →
      exec (.hostWrite addr lanes data) s =
        .next { s with host.phase := .idle, lines := s.lines.answered true false 0 })

/-- A write to a JOURNALED region in OPEN (R108): a hit is queued with the epoch's tag and no append (R28); a miss claims a
reservation, and the write is queued with the append of that sequence, its block entered in the set, or counted as a spill
when the set is full (R5, R7, R29, R30). A claim that finds reserved equal to the slot count is refused: the epoch is
DOOMED, DOOMED is set, and the write is refused with JOURNAL_FULL under the epoch's serial, the counters kept (R5). The data
lines after a write are the model's (log 12). -/
def Obligations.JournaledWritesAreCoveredOrDoom : Prop :=
  (∀ (s : State) (addr : WordAddr) (lanes : Lanes) (data : Word) (index : RegionIndex) (width : Width)
    (policy : OutsidePolicy),
    s.admitsWrite addr lanes index .journaled width policy → s.host.queue.length < 8 → s.control.device = .ready →
    s.epoch.state = .opened →
    (lanes = .neither →
      exec (.hostWrite addr lanes data) s =
        .next { s with host.phase := .idle, lines := s.lines.answered true false 0 }) ∧
    (lanes ≠ .neither → (∃ e ∈ s.loggedSet, e.block = addr.toNat / 16) →
      exec (.hostWrite addr lanes data) s =
        .next
          (s.queued
            { addr := addr, data := data, lanes := lanes, region := index, tag := some s.epoch.serial, append := none
              progress := .writeWaiting })) ∧
    (lanes ≠ .neither → (∀ e ∈ s.loggedSet, e.block ≠ addr.toNat / 16) →
      s.epoch.reserved < s.journal.live.slots.toNat → s.loggedSet.length < 64 →
      exec (.hostWrite addr lanes data) s =
        .next
          (({ s with
            epoch.reserved := s.epoch.reserved + 1
            loggedSet :=
              s.loggedSet ++ [{ block := addr.toNat / 16, state := .pending, sequence := s.epoch.reserved }] } : State).queued
            { addr := addr, data := data, lanes := lanes, region := index, tag := some s.epoch.serial
              append := some { sequence := s.epoch.reserved, spill := false }, progress := .appendWaiting })) ∧
    (lanes ≠ .neither → (∀ e ∈ s.loggedSet, e.block ≠ addr.toNat / 16) →
      s.epoch.reserved < s.journal.live.slots.toNat → 64 ≤ s.loggedSet.length →
      exec (.hostWrite addr lanes data) s =
        .next
          (({ s with
            epoch := { s.epoch with reserved := s.epoch.reserved + 1, spills := s.epoch.spills + 1 } } : State).queued
            { addr := addr, data := data, lanes := lanes, region := index, tag := some s.epoch.serial
              append := some { sequence := s.epoch.reserved, spill := true }, progress := .appendWaiting }))) ∧
  (∀ (s : State) (addr : WordAddr) (lanes : Lanes) (data : Word) (index : RegionIndex) (width : Width)
    (policy : OutsidePolicy),
    s.admitsWrite addr lanes index .journaled width policy → s.host.queue.length < 8 → s.control.device = .ready →
    s.epoch.state = .opened → lanes ≠ .neither → (∀ e ∈ s.loggedSet, e.block ≠ addr.toNat / 16) →
    s.epoch.reserved = s.journal.live.slots.toNat →
    exec (.hostWrite addr lanes data) s =
      .next
        (({ s with
          epoch.state := .doomed
          events.flags := s.events.flags ||| EventFlag.doomed.mask } : State).refused .write addr lanes .journalFull
            s.epoch.serial))

/-- A host read is classified by the first step that applies: held, refused, or asked of the Memory Port in GRANT_WAIT
(R115, R116). One that completes answers the host with the 16 bits the memory holds at its address, whatever its lanes, and
changes no byte (R117, R99). What the answer lines hold while the read waits is the model's (log 12). -/
def Obligations.ReadsAreClassifiedAndAnswered : Prop :=
  (∀ (s : State) (addr : WordAddr) (lanes : Lanes) (t : State), s.running = true → s.lines.presented = none →
    t = s.presenting { kind := .read, addr := addr, lanes := lanes, data := 0 } →
    exec (.hostRead addr lanes) s =
      .next
        (if s.control.device = .starting then { t with host.phase := .held .starting }
        else if s.control.hold = true then { t with host.phase := .held .power }
        else
          match s.lookup addr with
          | .deviceArea => s.refused .read addr lanes .deviceArea s.refusalSerial
          | .journalArea => s.refused .read addr lanes .journalArea s.refusalSerial
          | .unmapped => s.refused .read addr lanes .unmapped s.refusalSerial
          | .region _ cls _ _ =>
            if cls = .journaled ∧ s.control.device = .recovering then { t with host.phase := .held .recovery }
            else if cls = .journaled ∧ s.epoch.state = .rollingBack then { t with host.phase := .held .epoch }
            else if ∃ e ∈ s.host.queue, e.addr.toNat / 16 = addr.toNat / 16 then
              { t with host.phase := .held .blockOrder }
            else { t with host.phase := .grantWait })) ∧
  (∀ (s : State) (op : Operation), s.port.op = some op → op.kind = .hostRead → op.writes = [] →
    exec .hostReadComplete s =
      .next
        { s with
          port.op := none
          host.phase := .idle
          lines := s.lines.answered true false (readWord s.mem op.start) })

/-! ## The memory port -/

/-- With the hold flag clear the free port alternates between a host read and the device side (R123, R125); on the device
side WP goes before MT, MT before MA, a SAVE_CONFIG before the journal's operation, and among arming reads the lowest
index (R126). A grant changes the port, the phase of the read or the owner's progress, and nothing else. -/
def Obligations.GrantsAlternateBetweenTheSides : Prop :=
  (∀ (s : State) (r : HostRequest), s.running = true → s.port.op = none → s.control.hold = false →
    s.host.phase = .grantWait → s.lines.presented = some r → s.port.alternation = .device ∨ s.deviceWaiting = none →
    exec .arbiterGrant s =
      .next
        { s with
          port := { op := some { kind := .hostRead, start := r.addr, reads := 1, writes := [], lanes := .both }
                    alternation := .host }
          host.phase := .performing }) ∧
  (∀ (s : State) (k : OpKind), s.running = true → s.port.op = none → s.control.hold = false →
    s.host.phase ≠ .grantWait ∨ s.port.alternation = .host → s.deviceWaiting = some k →
    ∃ t, exec .arbiterGrant s = .next t ∧ t.port = { op := some (s.operationFor k), alternation := .device } ∧
      t = { s with port := t.port, host.queue := t.host.queue, journal := t.journal } ∧
      ((∀ c, k ≠ .zeroAnchor c) → t.journal = s.journal) ∧
      (k ≠ .queueWrite → k ≠ .appendRead → t.host = s.host)) ∧
  (∀ s : State, s.running = true → s.port.op = none → s.control.hold = false → s.host.phase ≠ .grantWait →
    s.deviceWaiting = none → exec .arbiterGrant s = .next s) ∧
  ∀ s : State,
    (∀ k, s.wpWaiting = some k → s.deviceWaiting = some k) ∧
    (s.wpWaiting = none →
      (s.regions.saving = true → s.deviceWaiting = some (.saveConfig (copyNotInForce s.regions.inForce))) ∧
      (s.regions.saving = false →
        (∀ k, s.journalWaiting = some k → s.deviceWaiting = some k) ∧
        (s.journalWaiting = none →
          (∀ i : Fin 8, s.monitors[i].state = .arming → (∀ j : Fin 8, j < i → s.monitors[j].state ≠ .arming) →
            s.deviceWaiting = some (.arming i true)) ∧
          ((∀ i : Fin 8, s.monitors[i].state ≠ .arming) → s.deviceWaiting = none))))

/-- While the hold flag is set the port grants the write path, then a restore or the commit anchor write of an epoch whose
entries have left the queue, and nothing else: no host read, no arming read, no other maintenance work (R127). -/
def Obligations.TheHoldGrantsOnlyWhatMustFinish : Prop :=
  ∀ s : State, s.running = true → s.port.op = none → s.control.hold = true →
    (∀ k, s.wpWaiting = some k →
      ∃ t, exec .arbiterGrant s = .next t ∧ t.port = { op := some (s.operationFor k), alternation := .device } ∧
        t = { s with port := t.port, host.queue := t.host.queue }) ∧
    (s.wpWaiting = none →
      (∀ block words, s.rollback.phase = .restore block words →
        exec .arbiterGrant s =
          .next
            { s with
              port :=
                { op := some
                    { kind := .restore, start := BitVec.ofNat 20 (16 * block), reads := 0, writes := words
                      lanes := .both }
                  alternation := .device } }) ∧
      (s.rollback.phase = .idle ∨ s.rollback.phase = .paused → s.epoch.state = .closing →
        (∀ e ∈ s.host.queue, e.tag ≠ some s.epoch.serial) →
        exec .arbiterGrant s =
          .next
            { s with
              port :=
                { op := some (s.operationFor (.commitAnchor (copyNotInForce s.journal.inForce)))
                  alternation := .device } }) ∧
      ((∀ block words, s.rollback.phase ≠ .restore block words) → s.epoch.state ≠ .closing →
        exec .arbiterGrant s = .next s))

/-- The head entry of the queue is retired in stages (R111): the block read of its append (R43), the slot write of the record
at slot (tail + sequence) mod slot count (R41, R44), and its word write with its lanes; the hold flag changes nothing of
this (R114). -/
def Obligations.TheHeadEntryIsRetiredInStages : Prop :=
  ∀ (s : State) (head : QueueEntry) (rest : List QueueEntry), s.running = true → s.port.op = none →
    s.host.queue = head :: rest →
    s.control.hold = true ∨ s.host.phase ≠ .grantWait ∨ s.port.alternation = .host →
    (head.progress = .appendWaiting →
      exec .arbiterGrant s =
        .next
          { s with
            host.queue := { head with progress := .appendInFlight } :: rest
            port :=
              { op := some
                  { kind := .appendRead, start := BitVec.ofNat 20 (16 * (head.addr.toNat / 16)), reads := 16, writes := []
                    lanes := .both }
                alternation := .device } }) ∧
    (∀ (preimage : List Word) (a : Append) (serial : Serial), head.progress = .appendInFlight →
      s.journal.preimage = some preimage → head.append = some a → head.tag = some serial →
      exec .arbiterGrant s =
        .next
          { s with
            port :=
              { op := some
                  { kind := .appendWrite
                    start := BitVec.ofNat 20
                      (16 * s.journal.live.base.toNat +
                        22 * ((s.journal.tail + a.sequence) % s.journal.live.slots.toNat))
                    reads := 0
                    writes := recordWords a.spill serial a.sequence (head.addr.toNat / 16) preimage
                    lanes := .both }
                alternation := .device } }) ∧
    (head.progress = .writeWaiting →
      exec .arbiterGrant s =
        .next
          { s with
            host.queue := { head with progress := .writeInProgress } :: rest
            port :=
              { op := some
                  { kind := .queueWrite, start := head.addr, reads := 0, writes := [head.data], lanes := head.lanes }
                alternation := .device } })

/-- The maintenance work asks one operation at a time, with these extents and these words (section 7.1): the run's slot read
of slot (base tail + remaining - 1) mod slot count (R68) and its restore of the record's block (R69), the abort and the
commit anchor write into the copy not in force with the serial + 1 and the tail past the records (R51, R52), FORMAT's
operations (R58 to R60), the reads and the anchor write of start-up (R136, R138, R139, R141), and, when nothing else waits,
the read of the word of the arming cell with the lowest index (R126, R154). SAVE_CONFIG's write is said with its command. -/
def Obligations.MaintenanceAsksItsOperation : Prop :=
  ∀ (s : State) (c : Copy) (slotAt : Nat → WordAddr) (closing : List Word),
    s.running = true → s.port.op = none → s.control.hold = false → s.host.queue = [] → s.host.phase ≠ .grantWait →
    s.regions.saving = false → c = copyNotInForce s.journal.inForce →
    (∀ n, slotAt n = BitVec.ofNat 20
      (16 * s.journal.live.base.toNat + 22 * (n % s.journal.live.slots.toNat))) →
    closing = anchorWords (s.epoch.serial + 1) ((s.journal.tail + s.epoch.written) % s.journal.live.slots.toNat)
      s.journal.live →
    ∃ t, exec .arbiterGrant s = .next t ∧ t = { s with port := t.port, journal := t.journal } ∧
      (s.rollback.phase = .read →
        t.port.op = some (readOp .rollbackRead (slotAt (s.rollback.baseTail + (s.rollback.remaining - 1))) 22)) ∧
      (∀ block words, s.rollback.phase = .restore block words →
        t.port.op = some (writeOp .restore (BitVec.ofNat 20 (16 * block)) words)) ∧
      (∀ i : Fin 8, s.rollback.phase = .idle ∨ s.rollback.phase = .paused → s.epoch.state ≠ .closing →
        s.journal.format = none → s.control.step = .done → s.monitors[i].state = .arming →
        (∀ j : Fin 8, j < i → s.monitors[j].state ≠ .arming) →
        t.port.op = some (readOp (.arming i true) s.monitors[i].addr 1)) ∧
      (s.rollback.phase = .close → t.port.op = some (writeOp (.abortAnchor c) c.anchorStart closing)) ∧
      (s.rollback.phase = .idle → s.epoch.state = .closing →
        t.port.op = some (writeOp (.commitAnchor c) c.anchorStart closing)) ∧
      (∀ job, s.rollback.phase = .idle → s.epoch.state = .idle → s.journal.format = some job →
        (job.step = .zeroFirst → t.journal = s.journal ∧
          t.port.op = some (writeOp (.zeroAnchor c) c.anchorStart (List.replicate 8 0))) ∧
        (job.step = .zeroSecond → t.journal = { s.journal with inForce := none, anchorSerial := 0 } ∧
          t.port.op = some (writeOp (.zeroAnchor c.other) c.other.anchorStart (List.replicate 8 0))) ∧
        (job.step = .config →
          t.port.op = some (writeOp (.formatConfig (copyNotInForce s.regions.inForce))
            (copyNotInForce s.regions.inForce).configStart
            (configWords { generation := s.regions.generation + 1, location := s.journal.live
                           table := s.regions.live }))) ∧
        (∀ k, job.step = .slots k → k < s.journal.live.slots.toNat →
          t.port.op = some (writeOp .zeroSlot (slotAt k) (List.replicate 22 0))) ∧
        (job.step = .anchor →
          t.port.op = some (writeOp .formatAnchor 128 (anchorWords 1 0 s.journal.live)))) ∧
      (s.rollback.phase = .idle → s.epoch.state = .idle → s.journal.format = none →
        (s.control.step = .configRead → s.control.firstCopy = none → t.port.op = some (readOp (.configRead .a) 0 64)) ∧
        (s.control.step = .configRead → s.control.firstCopy ≠ none → t.port.op = some (readOp (.configRead .b) 64 64)) ∧
        (s.control.step = .anchorRead → s.control.firstCopy = none → t.port.op = some (readOp (.anchorRead .a) 128 8)) ∧
        (s.control.step = .anchorRead → s.control.firstCopy ≠ none → t.port.op = some (readOp (.anchorRead .b) 136 8)) ∧
        (s.control.step = .scan →
          t.port.op = some (readOp .scanRead (slotAt (s.journal.tail + s.control.scanIndex)) 22)) ∧
        (s.control.step = .anchorWrite →
          t.port.op = some (writeOp (.recoveryAnchor c) c.anchorStart
            (anchorWords (s.journal.anchorSerial + 1)
              ((s.journal.tail + s.control.scanIndex) % s.journal.live.slots.toNat) s.journal.live))))

/-- The completion of the operation in progress stores that operation's words and no other byte (R121): with both lanes every
word of its extent reads as written, with one lane that byte alone; and a read stores nothing. The memory is in canonical
form, as every step keeps it. -/
def Obligations.CompletionsStoreTheirWords : Prop :=
  ∀ (s : State) (op : Operation), s.memoryWf → s.port.op = some op → op.writes.length ≤ 64 →
    ∃ t, exec (completionOf op.kind) s = .next t ∧ t.port.op = none ∧
      (∀ a, ¬op.stores a → readByte t.mem a = readByte s.mem a) ∧
      ∀ i w, op.writes[i]? = some w →
        readWord t.mem (op.start + BitVec.ofNat 20 i) =
          mergeLanes (readWord s.mem (op.start + BitVec.ofNat 20 i)) w op.lanes

/-- Nothing but the completion of the operation in progress and a reset changes a byte of the attached memory or ends that
operation (R121): no command, request, tick or power warning; an arming read alone may lose its cell (R154). That no byte
changes before the completion is the model's: R121 performs the words one by one while the operation is in progress (log
19). -/
def Obligations.OnlyCompletionsAndResetsStore : Prop :=
  ∀ (i : Instr) (s t : State), mayReset i = false → exec i s = .next t →
    (∀ op, s.port.op = some op → i ≠ completionOf op.kind) →
    t.mem = s.mem ∧
      ∀ op, s.port.op = some op →
        t.port.op = some op ∨
          ∃ cell, op.kind = .arming cell true ∧ t.port.op = some { op with kind := .arming cell false }

/-- A reset cuts the operation in progress short at one word (R132): the words before it are new, the words after it old, the
word itself a mixture of both, and no byte outside the operation's extent changes; a read leaves the memory as it is. This
holds whatever the free tear point and mixture are (log 3). -/
def Obligations.AResetTearsAtMostOneWord : Prop :=
  ∀ (s t : State) (op : Operation) (i : Instr), s.memoryWf → s.port.op = some op → op.writes.length ≤ 64 →
    i = .powerOn ∨ i = .powerLoss ∨ i = .rstnAssert ∧ s.running = true ∨
      i = .chipSelectRise ∧ s.running = true ∧ s.lines.csLow = true ∧ s.control.restartPending = true →
    exec i s = .next t →
    (∀ a, ¬op.covers a → readByte t.mem a = readByte s.mem a) ∧
    (op.writes = [] → t.mem = s.mem) ∧
    (op.writes ≠ [] →
      ∃ cut, cut < op.writes.length ∧
        (∀ k w, op.writes[k]? = some w → k < cut →
          readWord t.mem (op.start + BitVec.ofNat 20 k) =
            mergeLanes (readWord s.mem (op.start + BitVec.ofNat 20 k)) w op.lanes) ∧
        (∀ k, k < op.writes.length → cut < k →
          readWord t.mem (op.start + BitVec.ofNat 20 k) = readWord s.mem (op.start + BitVec.ofNat 20 k)) ∧
        ∀ w, op.writes[cut]? = some w → ∀ b, b < 16 →
          (readWord t.mem (op.start + BitVec.ofNat 20 cut)).getLsbD b =
              (readWord s.mem (op.start + BitVec.ofNat 20 cut)).getLsbD b ∨
            (readWord t.mem (op.start + BitVec.ofNat 20 cut)).getLsbD b =
              (mergeLanes (readWord s.mem (op.start + BitVec.ofNat 20 cut)) w op.lanes).getLsbD b)

/-- Once QUIET is asserted it stays asserted until the hold flag clears or a reset occurs (R129, R130): from every state with
QUIET, every command that neither deasserts PFW nor resets the part leaves it asserted, and the memory as it is. -/
def Obligations.QuietStaysUntilTheHoldEnds : Prop :=
  ∀ (i : Instr) (s t : State), s.quiet = true → i ≠ .pfwDeassert → i ≠ .powerOn → i ≠ .powerLoss → i ≠ .rstnAssert →
    (i = .chipSelectRise → s.control.restartPending = false) → exec i s = .next t →
    t.quiet = true ∧ t.mem = s.mem

/-! ## The write path's completions and the monitors -/

/-- The word write of the head entry completes: it is performed and shown to the monitors with source HOST, the entry
retires, and a request held with QUEUE_FULL, or with BLOCK_ORDER on a block with no entry left, is classified afresh
(R111, R116, R131). The completion that empties the queue in the drain step takes FORMAT to step 2 (R56, R57): the staged
location is live, the cells on it are DISARMED, and a write held with FORMAT_DRAIN is classified afresh, or one held with
QUEUE_FULL; a read held with BLOCK_ORDER is classified afresh as the entry leaves; a request not held, or held with any other
reason, stays as it was. -/
def Obligations.QueueWritesRetireTheHead : Prop :=
  ∀ (s u : State) (op : Operation), s.port.op = some op → op.kind = .queueWrite →
    u = { s with
          port.op := none
          mem := writeWords s.mem op.start op.lanes op.writes
          host.queue := s.host.queue.tail
          monitors := (s.showWrite op.start op.writes op.lanes .host).monitors
          events := (s.showWrite op.start op.writes op.lanes .host).events } →
    (s.draining = false ∨ s.host.queue.tail ≠ [] →
      exec .queueWordWriteComplete s = .next (u.classifiedIf (s.leaveFrees s.host.queue.tail))) ∧
    (∀ old, s.journal.format = some { old := old, step := .drain } → s.host.queue.tail = [] →
      ∃ t v, exec .queueWordWriteComplete s = .next t ∧
        v = { u with
              journal :=
                { s.journal with
                  live := s.journal.staged.getD s.journal.live
                  staged := none
                  format := some { old := old, step := .zeroFirst } }
              monitors := v.monitors } ∧
        (∀ i : Fin 8,
          v.monitors[i] =
            if u.monitors[i].state ≠ .disarmed ∧
                (s.journal.staged.getD s.journal.live).covers (u.monitors[i].addr.toNat / 16) = true then
              { u.monitors[i] with state := .disarmed }
            else u.monitors[i]) ∧
        t.journal = v.journal ∧ t.monitors = v.monitors ∧ t.mem = v.mem ∧ t.port = v.port ∧
        (s.host.phase ≠ .held .queueFull → s.host.phase ≠ .held .blockOrder → s.host.phase ≠ .held .formatDrain → t = v) ∧
        (s.host.phase = .held .formatDrain → t = v.classify) ∧
        (s.host.phase = .held .queueFull → (∀ r, s.lines.presented = some r → r.kind = .write) → t = v.classify) ∧
        (s.host.phase = .held .blockOrder → (∀ r, s.lines.presented = some r → r.kind = .read) →
          t = { u.classify with journal := v.journal, monitors := v.monitors }))

/-- The block read of an append keeps the block's 16 words as the pre-image (R43). Its slot write completes the record: written
rises, the set's entry of that sequence becomes LOGGED, and the head's word write is next (R8, R32, R45); in ROLLING_BACK the
cancelled head leaves the queue instead and the rollback starts with n = written (R14, R15, R65, R113). -/
def Obligations.AppendsReportTheirRecord : Prop :=
  (∀ (s : State) (op : Operation), s.port.op = some op → op.kind = .appendRead → op.writes = [] →
    exec .appendBlockReadComplete s =
      .next { s with port.op := none, journal.preimage := some (readWords s.mem op.start op.reads) }) ∧
  ∀ (s : State) (op : Operation) (head : QueueEntry) (rest : List QueueEntry) (a : Append) (logged : List SetEntry),
    s.port.op = some op → op.kind = .appendWrite → s.host.queue = head :: rest → head.append = some a →
    logged = s.loggedSet.map (fun e => if e.sequence = a.sequence then { e with state := .logged } else e) →
    (s.epoch.state ≠ .rollingBack →
      exec .appendSlotWriteComplete s =
        .next
          { s with
            port.op := none
            mem := writeWords s.mem op.start op.lanes op.writes
            epoch.written := s.epoch.written + 1
            loggedSet := logged
            journal.preimage := none
            host.queue := { head with progress := .writeWaiting } :: rest }) ∧
    (s.epoch.state = .rollingBack → s.rollback.run = .none → s.journal.format = none →
      (∀ e ∈ rest, e.progress ≠ .appendInFlight) →
      exec .appendSlotWriteComplete s =
        .next
          (({ s with
            port.op := none
            mem := writeWords s.mem op.start op.lanes op.writes
            epoch := { s.epoch with written := s.epoch.written + 1, reserved := s.epoch.written + 1 }
            loggedSet := logged
            journal.preimage := none
            host.queue := rest
            rollback :=
              { run := .abort
                phase := if s.control.hold then .paused else .read
                expected := s.epoch.serial
                baseTail := s.journal.tail
                remaining := s.epoch.written + 1
                damage := 0
                lastDamage := 0 } } : State).classifiedIf (s.leaveFrees rest)))

/-- ARM_MONITOR and DISARM_MONITOR (R153, R155): the checks in their order, and the cell's fields afterwards. The arming read
takes the word into the shadow and judges it by R152, counting no trigger; one whose cell was disarmed meanwhile is
discarded (R154). -/
def Obligations.MonitorsArmAndDisarm : Prop :=
  (∀ (index : Byte) (addr : BitVec 24) (mask compare : Word) (trigger : Byte) (s : State) (args : List Byte),
    args = [index] ++ bytes24 addr ++ bytes16 mask ++ bytes16 compare ++ [trigger] →
    s.canDecide 0x50 args = true → s.control.device = .ready → s.control.hold = false →
    (7 < index.toNat ∨ 1048575 < addr.toNat ∨ 1 < trigger.toNat →
      exec (.armMonitor index addr mask compare trigger) s = .next (s.decided 0x50 args .badArgument [])) ∧
    ∀ h : index.toNat < 8, addr.toNat ≤ 1048575 → trigger.toNat ≤ 1 →
      (s.monitors[index.toNat].state = .arming →
        exec (.armMonitor index addr mask compare trigger) s = .next (s.decided 0x50 args .busy [])) ∧
      (s.monitors[index.toNat].state ≠ .arming →
        s.lookup (addr.setWidth 20) = .deviceArea ∨ s.lookup (addr.setWidth 20) = .journalArea →
        exec (.armMonitor index addr mask compare trigger) s = .next (s.decided 0x50 args .badArgument [])) ∧
      (s.monitors[index.toNat].state ≠ .arming → s.lookup (addr.setWidth 20) ≠ .deviceArea →
        s.lookup (addr.setWidth 20) ≠ .journalArea →
        exec (.armMonitor index addr mask compare trigger) s =
          .next
            (({ s with
              monitors :=
                s.monitors.set index.toNat
                  { state := .arming, addr := addr.setWidth 20, mask := mask, compare := compare
                    trigger := if trigger = 0 then .depart else .arrive
                    shadow := s.monitors[index.toNat].shadow, count := 0, lastSource := .host } } : State).decided 0x50
              args .accepted []))) ∧
  (∀ (index : Byte) (s : State), s.canDecide 0x51 [index] = true → s.control.device = .ready →
    (7 < index.toNat → exec (.disarmMonitor index) s = .next (s.decided 0x51 [index] .badArgument [])) ∧
    ∀ h : index.toNat < 8,
      ∃ port, exec (.disarmMonitor index) s =
          .next
            (({ s with
              port := port
              monitors :=
                s.monitors.set index.toNat { s.monitors[index.toNat] with state := .disarmed } } : State).decided 0x51
              [index] .ok []) ∧
        port.alternation = s.port.alternation ∧
        port.op = s.port.op.map (fun op =>
          if op.kind = .arming ⟨index.toNat, h⟩ true then { op with kind := .arming ⟨index.toNat, h⟩ false } else op)) ∧
  ∀ (s : State) (op : Operation) (i : Fin 8) (w : Word), s.port.op = some op → op.writes = [] →
    w = readWord s.mem op.start →
    (op.kind = .arming i false → exec .armingReadComplete s = .next { s with port.op := none }) ∧
    (op.kind = .arming i true →
      ∃ state,
        (state = .matching ∧ (∀ b, b < 16 → s.monitors[i].mask.getLsbD b = true →
              w.getLsbD b = s.monitors[i].compare.getLsbD b) ∨
            state = .mismatch ∧ ∃ b, b < 16 ∧ s.monitors[i].mask.getLsbD b = true ∧
              w.getLsbD b ≠ s.monitors[i].compare.getLsbD b) ∧
          exec .armingReadComplete s =
            .next
              { s with
                port.op := none
                monitors := s.monitors.set i { s.monitors[i] with shadow := w, state := state } })

/-- A write shown to the monitors (R156, R157): a cell not armed, or whose word is not written, is unchanged; an armed cell
merges the written lanes into its shadow, takes the state that follows, and counts a trigger, up to 15, with the write's
source and its flag MONn, exactly when the change is in its trigger's direction. Nothing else changes, the other flags
included. An armed cell's shadow so follows its word in the attached memory (R158): the completion of a word write and of a
restore keep every armed cell's shadow equal to its word, and the other completions do so as long as they write no armed
cell's word, which every step sees to (ShadowsFollowTheMemory). -/
def Obligations.ShownWritesAreEvaluated : Prop :=
  (∀ (s : State) (start : WordAddr) (words : List Word) (lanes : Lanes) (source : Source),
    s.showWrite start words lanes source =
      { s with
        monitors := (s.showWrite start words lanes source).monitors
        events.flags := (s.showWrite start words lanes source).events.flags } ∧
    (∀ k, k < 14 → (s.showWrite start words lanes source).events.flags.getLsbD k = s.events.flags.getLsbD k) ∧
    ∀ i : Fin 8,
      ((s.monitors[i].state = .disarmed ∨ s.monitors[i].state = .arming ∨
          s.monitors[i].addr.toNat < start.toNat ∨ start.toNat + words.length ≤ s.monitors[i].addr.toNat) →
        (s.showWrite start words lanes source).monitors[i] = s.monitors[i] ∧
          (s.showWrite start words lanes source).events.has (.mon i) = s.events.has (.mon i)) ∧
      ∀ (w : Word) (c : Cell) (counts : Prop),
        s.monitors[i].state = .matching ∨ s.monitors[i].state = .mismatch →
        start.toNat ≤ s.monitors[i].addr.toNat → words[s.monitors[i].addr.toNat - start.toNat]? = some w →
        c = { s.monitors[i] with
              shadow := mergeLanes s.monitors[i].shadow w lanes
              state :=
                if mergeLanes s.monitors[i].shadow w lanes &&& s.monitors[i].mask =
                    s.monitors[i].compare &&& s.monitors[i].mask then .matching
                else .mismatch } →
        (counts ↔
          s.monitors[i].trigger = .depart ∧ s.monitors[i].state = .matching ∧ c.state = .mismatch ∨
            s.monitors[i].trigger = .arrive ∧ s.monitors[i].state = .mismatch ∧ c.state = .matching) →
        (counts →
          (s.showWrite start words lanes source).monitors[i] =
              { c with count := if c.count < 15 then c.count + 1 else 15, lastSource := source } ∧
            (s.showWrite start words lanes source).events.has (.mon i) = true) ∧
        (¬counts →
          (s.showWrite start words lanes source).monitors[i] = c ∧
            (s.showWrite start words lanes source).events.has (.mon i) = s.events.has (.mon i))) ∧
  ∀ (s t : State) (op : Operation), s.memoryWf →
    (∀ i : Fin 8, s.monitors[i].armed = true → s.monitors[i].shadow = readWord s.mem s.monitors[i].addr) →
    s.port.op = some op → op.start.toNat + op.writes.length ≤ 1048576 →
    op.kind = .queueWrite ∨ op.kind = .restore ∨
      (∀ i : Fin 8, s.monitors[i].armed = true → s.monitors[i].addr.toNat < op.start.toNat ∨
        op.start.toNat + op.writes.length ≤ s.monitors[i].addr.toNat) →
    (∀ cell, op.kind = .arming cell true → op.start = s.monitors[cell].addr ∧ op.writes = []) →
    exec (completionOf op.kind) s = .next t →
    ∀ i : Fin 8, t.monitors[i].armed = true → t.monitors[i].shadow = readWord t.mem t.monitors[i].addr

/-- Every step keeps R158: an armed cell's shadow equals its word in the attached memory. With it, no armed or arming cell
watches a word of the device area, the live journal area or the old one (R153, R54, R57), and the extent of the operation in
progress lies where its kind puts it (section 7.1), so that no write but those shown to the cells can reach a word they
watch. -/
def Obligations.ShadowsFollowTheMemory : Prop :=
  ∀ s t : State, s.shadowLaw → step s = .next t → t.shadowLaw

/-! ## Rollback -/

/-- The slot read of a run completes (R68): a valid record goes on to its restore. An invalid one is damaged (R70): the
damage count rises, in an abort run the last rollback damage count with it, ROLLBACK_DAMAGE is set, and the record is
finished. A restore write completes (R69): the block holds the record's words, the write is shown to the monitors with
source ROLLBACK (R131), and the record is finished. Then remaining falls by 1: an abort run goes on to its next record or
to its anchor, a recovery run to its next record or to start-up's anchor write, and under the hold flag it pauses (R66,
R71, R76). -/
def Obligations.RunsJudgeAndRestoreTheirRecords : Prop :=
  (∀ (s : State) (op : Operation) (judged : Option (Nat × List Word)), s.port.op = some op → op.kind = .rollbackRead →
    op.writes = [] →
    judged = judgeRecord s.rollback.expected (s.rollback.remaining - 1) s.journal.live
      (readWords s.mem op.start op.reads) →
    (∀ block words, judged = some (block, words) →
      exec .rollbackSlotReadComplete s =
        .next { s with port.op := none, rollback.phase := .restore block words }) ∧
    (judged = none → s.rollback.run = .abort → 1 ≤ s.rollback.remaining →
      exec .rollbackSlotReadComplete s =
        .next
          { s with
            port.op := none
            events.flags := s.events.flags ||| EventFlag.rollbackDamage.mask
            rollback :=
              { s.rollback with
                damage := s.rollback.damage + 1
                lastDamage := s.rollback.lastDamage + 1
                remaining := s.rollback.remaining - 1
                phase :=
                  if s.control.hold then .paused else if s.rollback.remaining = 1 then .close else .read } }) ∧
    (judged = none → s.rollback.run = .recovery →
      (2 ≤ s.rollback.remaining →
        exec .rollbackSlotReadComplete s =
          .next
            { s with
              port.op := none
              events.flags := s.events.flags ||| EventFlag.rollbackDamage.mask
              rollback :=
                { s.rollback with
                  damage := s.rollback.damage + 1
                  remaining := s.rollback.remaining - 1
                  phase := if s.control.hold then .paused else .read } }) ∧
      (s.rollback.remaining = 1 →
        exec .rollbackSlotReadComplete s =
          .next
            { s with
              port.op := none
              events.flags := s.events.flags ||| EventFlag.rollbackDamage.mask
              control.step := .anchorWrite
              rollback :=
                { s.rollback with
                  damage := s.rollback.damage + 1, run := .none, remaining := 0, phase := .idle } }))) ∧
  (∀ (s u : State) (op : Operation), s.port.op = some op → op.kind = .restore →
    u = { s with
          port.op := none
          mem := writeWords s.mem op.start op.lanes op.writes
          monitors := (s.showWrite op.start op.writes op.lanes .rollback).monitors
          events := (s.showWrite op.start op.writes op.lanes .rollback).events } →
    (s.rollback.run = .abort → 1 ≤ s.rollback.remaining →
      exec .restoreWriteComplete s =
        .next
          { u with
            rollback :=
              { s.rollback with
                remaining := s.rollback.remaining - 1
                phase :=
                  if s.control.hold then .paused else if s.rollback.remaining = 1 then .close else .read } }) ∧
    (s.rollback.run = .recovery → 2 ≤ s.rollback.remaining →
      exec .restoreWriteComplete s =
        .next
          { u with
            rollback :=
              { s.rollback with
                remaining := s.rollback.remaining - 1, phase := if s.control.hold then .paused else .read } }) ∧
    (s.rollback.run = .recovery → s.rollback.remaining = 1 →
      exec .restoreWriteComplete s =
        .next
          { u with
            control.step := .anchorWrite
            rollback := { s.rollback with run := .none, remaining := 0, phase := .idle } }))

/-- A record a run has read back from the slot its append wrote is judged valid, whatever its kind, and names the block and
the pre-image that the append kept (R41, R42, R68), as long as the fields fit and the block is one the host may write. An
anchor read back from its copy is valid against the location it names, and fixes the next serial and the tail it was
written with (R48, R49); a zero anchor is never valid (R58). -/
def Obligations.RecordsAndAnchorsAreReadBack : Prop :=
  (∀ (m : List Host.Cell) (start : WordAddr) (spill : Bool) (serial : Serial) (sequence block : Nat)
    (preimage : List Word) (live : Location), Memory.wf m →
    preimage.length = 16 → sequence < 65536 → 9 ≤ block → block < 65536 → live.covers block = false →
    judgeRecord serial sequence live
        (readWords (writeWords m start .both (recordWords spill serial sequence block preimage)) start 22) =
      some (block, preimage)) ∧
  ((∀ (m : List Host.Cell) (start : WordAddr) (next : Serial) (tail : Nat) (l : Location), Memory.wf m →
    next ≠ 0 → tail < l.slots.toNat →
    judgeAnchor l (readWords (writeWords m start .both (anchorWords next tail l)) start 8) =
      some { next := next, tail := tail }) ∧
  ∀ (m : List Host.Cell) (start : WordAddr) (l : Location), Memory.wf m →
    judgeAnchor l (readWords (writeWords m start .both (List.replicate 8 0)) start 8) = none)

/-- A configuration read back from the copy it was written to is valid and holds what was stored (R90, R91, R179): every
descriptor with its class, width and policy, the defaults, the location and the generation. -/
def Obligations.ConfigurationsAreReadBackAsWritten : Prop :=
  ∀ (m : List Host.Cell) (start : WordAddr) (c : StoredConfig), Memory.wf m →
    c.generation ≠ 0 → c.table.lawful c.location = true →
    (c.location.validForUse = true ∨ c.location = {}) →
    judgeConfig (readWords (writeWords m start .both (configWords c)) start 64) = some c

/-! ## The journal and its FORMAT -/

/-- SET_JOURNAL follows its checks in order and stages the location, with the live and the staged location in its reply; it
touches nothing else (R54). -/
def Obligations.SetJournalStagesALocation : Prop :=
  ∀ (base slots : Word) (s : State) (args : List Byte) (l : Location),
    args = bytes16 base ++ bytes16 slots → l = { base := base, slots := slots } →
    s.canDecide 0x30 args = true → s.control.device = .ready →
    (s.regions.saving = true ∨ s.journal.format ≠ none →
      exec (.setJournal base slots) s = .next (s.decided 0x30 args .busy [])) ∧
    (s.regions.saving = false → s.journal.format = none →
      (slots.toNat = 0 ∨ 4096 < slots.toNat ∨ 65535 < base.toNat + (22 * slots.toNat + 15) / 16 - 1 →
        exec (.setJournal base slots) s = .next (s.decided 0x30 args .badArgument [])) ∧
      (1 ≤ slots.toNat → slots.toNat ≤ 4096 → base.toNat + (22 * slots.toNat + 15) / 16 - 1 ≤ 65535 →
        (base.toNat < 9 ∨ (∃ i : Fin 16, s.regions.live.descs[i].overlapsArea l = true) ∨
            (∃ t, s.regions.staged = some t ∧ ∃ i : Fin 16, t.descs[i].overlapsArea l = true) ∨
            (∃ i : Fin 8, s.monitors[i].state ≠ .disarmed ∧ l.covers (s.monitors[i].addr.toNat / 16) = true) →
          exec (.setJournal base slots) s = .next (s.decided 0x30 args .conflict [])) ∧
        (9 ≤ base.toNat → (∀ i : Fin 16, s.regions.live.descs[i].overlapsArea l = false) →
          (∀ t, s.regions.staged = some t → ∀ i : Fin 16, t.descs[i].overlapsArea l = false) →
          (∀ i : Fin 8, s.monitors[i].state = .disarmed ∨ l.covers (s.monitors[i].addr.toNat / 16) = false) →
          exec (.setJournal base slots) s =
            .next
              (({ s with journal.staged := some l } : State).decided 0x30 args .ok
                (bytes16 s.journal.live.base ++ bytes16 s.journal.live.slots ++ bytes16 base ++ bytes16 slots)))))

/-- FORMAT follows its checks in order (R55). Taken, it begins the drain with a non-empty queue, and a read in GRANT_WAIT is
classified afresh against both areas (R56, R117); with an empty queue it goes to step 2 at once, where the staged location
becomes live and the cells on it are DISARMED (R57), an arming read in progress for one of them being discarded (R154). -/
def Obligations.FormatFollowsItsChecks : Prop :=
  ∀ (s u : State), s.canDecide 0x31 [] = true → s.control.device = .ready → s.control.hold = false →
    u = { s with
          journal :=
            { s.journal with
              status := .formatting, format := some { old := s.journal.live, step := .drain } } } →
    (s.epoch.state ≠ .idle → exec .format s = .next (s.decided 0x31 [] .state [])) ∧
    (s.epoch.state = .idle →
      (s.regions.saving = true ∨ s.journal.format ≠ none → exec .format s = .next (s.decided 0x31 [] .busy [])) ∧
      (s.regions.saving = false → s.journal.format = none →
        (s.journal.staged = none → s.journal.live.slots = 0 →
          exec .format s = .next (s.decided 0x31 [] .state [])) ∧
        (s.journal.staged ≠ none ∨ s.journal.live.slots ≠ 0 → s.regions.generation = 4294967295 →
          exec .format s = .next (s.decided 0x31 [] .exhausted [])) ∧
        (s.journal.staged ≠ none ∨ s.journal.live.slots ≠ 0 → s.regions.generation ≠ 4294967295 →
          (s.host.queue ≠ [] →
            exec .format s =
              .next ((u.classifiedIf (s.host.phase == .grantWait)).decided 0x31 [] .accepted [])) ∧
          (s.host.queue = [] → s.host.phase ≠ .held .formatDrain →
            (s.host.phase = .grantWait → ∃ r, s.lines.presented = some r ∧ r.kind = .read) →
            ∀ (live : Location) (off : Cell → Bool), live = s.journal.staged.getD s.journal.live →
            (∀ c, off c = true ↔ c.state ≠ .disarmed ∧ live.covers (c.addr.toNat / 16) = true) →
            exec .format s =
              .next
                (({ u.classifiedIf (s.host.phase == .grantWait) with
                  journal :=
                    { s.journal with
                      live := live
                      staged := none
                      status := .formatting
                      format := some { old := s.journal.live, step := .zeroFirst } }
                  monitors := s.monitors.map (fun c => if off c then { c with state := .disarmed } else c)
                  port.op := s.port.op.map (fun op =>
                    match op.kind with
                    | .arming i true => if off s.monitors[i] then { op with kind := .arming i false } else op
                    | _ => op) } : State).decided 0x31 [] .accepted [])))))

/-- The completions of FORMAT's operations (R58 to R60): the first zero anchor asks the second, the second the configuration
write, whose completion puts its copy in force with the generation + 1 without setting CONFIG_SAVED; then each slot asks the
next, the last the final anchor, whose completion ends FORMAT with anchor A in force, next serial and serial 1, tail 0,
status FORMATTED and FORMAT_DONE. -/
def Obligations.FormatRunsThroughItsSteps : Prop :=
  ∀ (s u : State) (op : Operation) (job : FormatJob), s.port.op = some op → s.journal.format = some job →
    u = { s with port.op := none, mem := writeWords s.mem op.start op.lanes op.writes } →
    (∀ c, op.kind = .zeroAnchor c →
      (job.step = .zeroFirst →
        exec .zeroAnchorWriteComplete s =
          .next { u with journal.format := some { job with step := .zeroSecond } }) ∧
      (job.step = .zeroSecond →
        exec .zeroAnchorWriteComplete s = .next { u with journal.format := some { job with step := .config } })) ∧
    (∀ c, op.kind = .formatConfig c → job.step = .config →
      exec .formatConfigWriteComplete s =
        .next
          { u with
            regions := { s.regions with inForce := some c, generation := s.regions.generation + 1 }
            journal.format := some { job with step := .slots 0 } }) ∧
    (∀ k, op.kind = .zeroSlot → job.step = .slots k →
      exec .zeroSlotWriteComplete s =
        .next
          { u with
            journal.format :=
              some { job with step := if k + 1 < s.journal.live.slots.toNat then .slots (k + 1) else .anchor } }) ∧
    (op.kind = .formatAnchor →
      exec .formatAnchorWriteComplete s =
        .next
          { u with
            epoch.serial := 1
            events.flags := s.events.flags ||| EventFlag.formatDone.mask
            journal :=
              { s.journal with
                inForce := some .a, anchorSerial := 1, tail := 0, status := .formatted, format := none } })

/-! ## The region table and the stored configuration -/

/-- SET_REGION follows its checks in order (R83). A descriptor taken goes into the live table in IDLE with reply 0, and into
the staged table, first a copy of the live one, in any other state with reply 1 (R85); with valid no the fixed descriptor
is stored whatever the other arguments carry. -/
def Obligations.SetRegionEditsOneDescriptor : Prop :=
  ∀ (index valid : Byte) (first last : Word) (cls width policy : Byte) (s : State) (args : List Byte)
    (edited : RegionTable),
    args = [index, valid] ++ bytes16 first ++ bytes16 last ++ [cls, width, policy] →
    s.canDecide 0x40 args = true → s.control.device = .ready →
    (s.epoch.state = .idle → edited = s.regions.live) →
    (s.epoch.state ≠ .idle → edited = s.regions.staged.getD s.regions.live) →
    (s.regions.saving = true ∨ s.journal.format ≠ none →
      exec (.setRegion index valid first last cls width policy) s = .next (s.decided 0x40 args .busy [])) ∧
    (s.regions.saving = false → s.journal.format = none →
      (15 < index.toNat ∨ 1 < valid.toNat ∨
          valid = 1 ∧ (2 < cls.toNat ∨ 1 < width.toNat ∨ 1 < policy.toNat ∨ last.toNat < first.toNat) →
        exec (.setRegion index valid first last cls width policy) s = .next (s.decided 0x40 args .badArgument [])) ∧
      ∀ (h : index.toNat < 16) (d : Descriptor),
        (valid = 0 ∧ d = {} ∨
          valid = 1 ∧ first.toNat ≤ last.toNat ∧ d.valid = true ∧ d.first = first ∧ d.last = last ∧
            d.cls.code = cls ∧ d.width.code = width ∧ d.policy.code = policy) →
        (d.valid = true →
          (first.toNat < 9 ∨ d.overlapsArea s.journal.live = true ∨
              (∃ l, s.journal.staged = some l ∧ d.overlapsArea l = true) ∨
              ∃ j : Fin 16, j.val ≠ index.toNat ∧ d.overlaps edited.descs[j] = true) →
          exec (.setRegion index valid first last cls width policy) s = .next (s.decided 0x40 args .conflict [])) ∧
        ((d.valid = true →
            9 ≤ first.toNat ∧ d.overlapsArea s.journal.live = false ∧
              (∀ l, s.journal.staged = some l → d.overlapsArea l = false) ∧
              ∀ j : Fin 16, j.val ≠ index.toNat → d.overlaps edited.descs[j] = false) →
          (s.epoch.state = .idle →
            exec (.setRegion index valid first last cls width policy) s =
              .next
                (({ s with regions.live.descs := s.regions.live.descs.set index.toNat d } : State).decided 0x40 args .ok
                  [0])) ∧
          (s.epoch.state ≠ .idle →
            exec (.setRegion index valid first last cls width policy) s =
              .next
                (({ s with
                  regions.staged := some { edited with descs := edited.descs.set index.toNat d } } : State).decided 0x40
                  args .ok [1]))))

/-- SET_DEFAULTS answers BUSY during a save or a FORMAT, then BAD_ARGUMENT for an unlisted code; taken, it replaces the live
defaults in IDLE and the staged ones, the staged table first a copy of the live one, in any other state (R86). -/
def Obligations.SetDefaultsReplacesTheDefaults : Prop :=
  ∀ (cls : Byte) (ageLimit : Word) (policy : Byte) (s : State) (args : List Byte) (d : Defaults),
    args = [cls] ++ bytes16 ageLimit ++ [policy] → s.canDecide 0x42 args = true → s.control.device = .ready →
    (s.regions.saving = true ∨ s.journal.format ≠ none →
      exec (.setDefaults cls ageLimit policy) s = .next (s.decided 0x42 args .busy [])) ∧
    (s.regions.saving = false → s.journal.format = none →
      (1 < cls.toNat ∨ 1 < policy.toNat →
        exec (.setDefaults cls ageLimit policy) s = .next (s.decided 0x42 args .badArgument [])) ∧
      (d.cls.code = cls → d.agePolicy.code = policy → d.ageLimit = ageLimit →
        (s.epoch.state = .idle →
          exec (.setDefaults cls ageLimit policy) s =
            .next (({ s with regions.live.defaults := d } : State).decided 0x42 args .ok [0])) ∧
        (s.epoch.state ≠ .idle →
          exec (.setDefaults cls ageLimit policy) s =
            .next
              (({ s with
                regions.staged := some { s.regions.staged.getD s.regions.live with defaults := d } } : State).decided
                0x42 args .ok [1]))))

/-- SAVE_CONFIG follows its checks in order and, taken, is in progress, with the copy and the generation to be written in its
reply (R94). Its configuration write, granted before the journal's work (R126), stores the live location, table and defaults
with that generation into that copy (R90, R95), and its completion puts the copy in force with the generation + 1, ends the
save and sets CONFIG_SAVED (R95). -/
def Obligations.SaveConfigStoresTheLiveValues : Prop :=
  (∀ s : State, s.canDecide 0x43 [] = true → s.control.device = .ready → s.control.hold = false →
    exec .saveConfig s =
      .next
        (if s.regions.saving = true ∨ s.journal.format ≠ none then s.decided 0x43 [] .busy []
        else if s.regions.staged ≠ none then s.decided 0x43 [] .state []
        else if s.regions.generation = 4294967295 then s.decided 0x43 [] .exhausted []
        else
          ({ s with regions.saving := true } : State).decided 0x43 [] .accepted
            ([if s.regions.inForce = some .a then 1 else 0] ++ bytes32 (s.regions.generation + 1)))) ∧
  (∀ (s : State) (c : Copy), s.running = true → s.port.op = none → s.control.hold = false → s.host.queue = [] →
    s.host.phase ≠ .grantWait ∨ s.port.alternation = .host → s.regions.saving = true →
    (c = .b ↔ s.regions.inForce = some .a) →
    exec .arbiterGrant s =
      .next
        { s with
          port :=
            { op := some (writeOp (.saveConfig c) c.configStart
                (configWords { generation := s.regions.generation + 1, location := s.journal.live
                               table := s.regions.live }))
              alternation := .device } }) ∧
  ∀ (s : State) (op : Operation) (c : Copy), s.port.op = some op → op.kind = .saveConfig c →
    exec .saveConfigWriteComplete s =
      .next
        { s with
          port.op := none
          mem := writeWords s.mem op.start op.lanes op.writes
          regions :=
            { s.regions with inForce := some c, generation := s.regions.generation + 1, saving := false }
          events.flags := s.events.flags ||| EventFlag.configSaved.mask }

/-! ## Start-up -/

/-- The configuration load (R93, R136, R137): copy A is kept until copy B has been read; then the valid copy with the larger
generation, A when they are equal, becomes live and in force. No valid copy is CONFIG_INVALID, and READY with the reset
values; a copy without a journal is READY at once; one with a journal is RECOVERING, the anchors read next. -/
def Obligations.StartUpLoadsTheConfiguration : Prop :=
  (∀ (s : State) (op : Operation), s.port.op = some op → op.writes = [] → op.kind = .configRead .a →
    exec .configReadComplete s =
      .next { s with port.op := none, control.firstCopy := some (readWords s.mem op.start op.reads) }) ∧
  ∀ (s u : State) (op : Operation) (first : List Word) (a b : Option StoredConfig), s.port.op = some op → op.writes = [] →
    op.kind = .configRead .b → s.control.firstCopy = some first → a = judgeConfig first →
    b = judgeConfig (readWords s.mem op.start op.reads) → u = { s with port.op := none } →
    (a = none → b = none →
      exec .configReadComplete s =
        .next
          (({ u with events.flags := s.events.flags ||| EventFlag.configInvalid.mask } : State).atReady.classifiedIf
            s.readyFrees)) ∧
    ∀ (copy : Copy) (c : StoredConfig) (v : State),
      (copy = .a ∧ a = some c ∧ (∀ d, b = some d → d.generation ≤ c.generation) ∨
        copy = .b ∧ b = some c ∧ ∀ d, a = some d → d.generation < c.generation) →
      v = { u with
            journal.live := c.location
            regions := { s.regions with live := c.table, staged := none, inForce := some copy
                                        generation := c.generation } } →
      (c.location.slots = 0 → exec .configReadComplete s = .next (v.atReady.classifiedIf s.readyFrees)) ∧
      (c.location.slots ≠ 0 →
        exec .configReadComplete s =
          .next
            (({ v with
              control := { s.control with device := .recovering, step := .anchorRead, firstCopy := none } } :
                State).classifiedIf (s.host.phase == .held .starting)))

/-- The anchor selection (R50, R138): the valid copy with the larger next serial, A when they are equal, is in force with its
tail, and the scan begins at index 0; with no valid copy JOURNAL_INVALID is set and the device reaches READY. -/
def Obligations.StartUpSelectsTheAnchor : Prop :=
  (∀ (s : State) (op : Operation), s.port.op = some op → op.writes = [] → op.kind = .anchorRead .a →
    exec .anchorReadComplete s =
      .next { s with port.op := none, control.firstCopy := some (readWords s.mem op.start op.reads) }) ∧
  ∀ (s u : State) (op : Operation) (first : List Word) (a b : Option Anchor), s.port.op = some op → op.writes = [] →
    op.kind = .anchorRead .b → s.control.firstCopy = some first → a = judgeAnchor s.journal.live first →
    b = judgeAnchor s.journal.live (readWords s.mem op.start op.reads) → u = { s with port.op := none } →
    (a = none → b = none →
      exec .anchorReadComplete s =
        .next
          (({ u with events.flags := s.events.flags ||| EventFlag.journalInvalid.mask } : State).atReady.classifiedIf
            s.readyFrees)) ∧
    ∀ (copy : Copy) (c : Anchor),
      (copy = .a ∧ a = some c ∧ (∀ d, b = some d → d.next ≤ c.next) ∨
        copy = .b ∧ b = some c ∧ ∀ d, a = some d → d.next < c.next) →
      exec .anchorReadComplete s =
        .next
          { u with
            journal := { s.journal with inForce := some copy, anchorSerial := c.next, tail := c.tail }
            control := { s.control with step := .scan, scanIndex := 0, firstCopy := none } }

/-- The scan (R139): a valid record of the next serial and the scan index raises the index; the first invalid one, or the
slot count, ends it. With n = 0 the serial is the anchor's, the journal FORMATTED and the device READY (R140); with n of 1
or more a recovery run of n records starts, paused under the hold flag (R66, R76, R141). Under the next serial
4,294,967,295, which no record carries (R63), it ends at the slot it stands at (log 11). -/
def Obligations.StartUpScansForTheUnfinishedEpoch : Prop :=
  ∀ (s u : State) (op : Operation) (hit : Prop) (n : Nat), s.port.op = some op → op.writes = [] → op.kind = .scanRead →
    u = { s with port.op := none } →
    (hit ↔ s.journal.anchorSerial ≠ 4294967295 ∧
      judgeRecord s.journal.anchorSerial s.control.scanIndex s.journal.live (readWords s.mem op.start op.reads) ≠ none) →
    (hit → s.control.scanIndex + 1 < s.journal.live.slots.toNat →
      exec .scanSlotReadComplete s = .next { u with control.scanIndex := s.control.scanIndex + 1 }) ∧
    (¬hit → s.control.scanIndex = 0 →
      exec .scanSlotReadComplete s =
        .next
          (({ u with
            epoch.serial := s.journal.anchorSerial
            journal.status := .formatted
            control := { s.control with lastN := 0, lastDamage := 0 } } : State).atReady.classifiedIf s.readyFrees)) ∧
    ((¬hit ∧ n = s.control.scanIndex ∧ 1 ≤ n ∨
        hit ∧ n = s.control.scanIndex + 1 ∧ s.journal.live.slots.toNat ≤ n) →
      exec .scanSlotReadComplete s =
        .next
          { u with
            control := { s.control with step := .rollback, scanIndex := n }
            rollback :=
              { s.rollback with
                run := .recovery
                phase := if s.control.hold then .paused else .read
                expected := s.journal.anchorSerial
                baseTail := s.journal.tail
                remaining := n
                damage := 0 } })

/-- The recovery anchor write completes (R141, R51, R52): its copy is in force with the next serial + 1 and the tail past the
records found, the serial is that next serial, the journal is FORMATTED, the last recovery result is kept, RECOVERED is set
and the device reaches READY. -/
def Obligations.TheRecoveryAnchorEndsRecovery : Prop :=
  ∀ (s : State) (op : Operation) (c : Copy), s.port.op = some op → op.kind = .recoveryAnchor c →
    exec .recoveryAnchorWriteComplete s =
      .next
        (({ s with
          port.op := none
          mem := writeWords s.mem op.start op.lanes op.writes
          epoch.serial := s.journal.anchorSerial + 1
          journal :=
            { s.journal with
              inForce := some c
              anchorSerial := s.journal.anchorSerial + 1
              tail := (s.journal.tail + s.control.scanIndex) % s.journal.live.slots.toNat
              status := .formatted }
          control := { s.control with lastN := s.control.scanIndex, lastDamage := s.rollback.damage }
          events.flags := s.events.flags ||| EventFlag.recovered.mask } : State).atReady.classifiedIf s.readyFrees)

/-! ## Power and reset -/

/-- PFW while the part runs (R146, R76, R117, R119, R148): its assertion sets the hold flag and HOLD_ENTERED, pauses a run
that has no record in hand and no abort anchor write under way, and holds a read in GRANT_WAIT; its deassertion clears the
flag, sets HOLD_LEFT, classifies a request held with POWER afresh and resumes a paused run. Where a run is paused on a free
port with no other MT request, no WP and no SAVE_CONFIG waiting, a free value says whether the arbiter acts before the run
asks again (which of the two acts first is the model's reading, log 29). If it does, it grants the arming read of the lowest
cell ARMING (R126, R160), or where there is none the host read, each by the alternation state (R125, R128); a host read that
goes first either way waits in GRANT_WAIT for the next grant. -/
def Obligations.TheHoldFollowsThePowerWarning : Prop :=
  (∀ (s : State) (busy : Prop), s.running = true → s.lines.pfw = false →
    (busy ↔ ∃ op, s.port.op = some op ∧
      (s.rollback.phase = .read ∧ op.kind = .rollbackRead ∨ s.rollback.phase = .close ∧ ∃ c, op.kind = .abortAnchor c)) →
    ∃ phase, exec .pfwAssert s =
        .next
          { s with
            lines.pfw := true
            control.hold := true
            events.flags := s.events.flags ||| EventFlag.holdEntered.mask
            rollback.phase := phase
            host.phase := if s.host.phase = .grantWait then .held .power else s.host.phase } ∧
      (s.rollback.phase = .read ∨ s.rollback.phase = .close → ¬busy → phase = .paused) ∧
      (busy ∨ s.rollback.phase ≠ .read ∧ s.rollback.phase ≠ .close → phase = s.rollback.phase)) ∧
  ∀ (s w : State) (next : RollbackPhase), s.running = true → s.lines.pfw = true →
    w = ({ s with
          lines.pfw := false
          control.hold := false
          events.flags := s.events.flags ||| EventFlag.holdLeft.mask } : State).classifiedIf (s.host.phase == .held .power) →
    next = (if s.rollback.remaining = 0 then .close else .read) →
    (s.rollback.phase ≠ .paused → exec .pfwDeassert s = .next w) ∧
    (s.rollback.phase = .paused → w.journalWaiting = none →
      (s.port.op ≠ none ∨ w.wpWaiting ≠ none ∨ s.regions.saving = true ∨
          w.host.phase = .grantWait ∧ s.port.alternation = .device ∨
          w.host.phase ≠ .grantWait ∧ (∀ i : Fin 8, s.monitors[i].state ≠ .arming) →
        exec .pfwDeassert s = .next { w with rollback.phase := next }) ∧
      (s.port.op = none → w.wpWaiting = none → s.regions.saving = false →
        (∀ i : Fin 8, w.host.phase ≠ .grantWait ∨ s.port.alternation = .host →
          s.monitors[i].state = .arming → (∀ j : Fin 8, j < i → s.monitors[j].state ≠ .arming) →
          exec .pfwDeassert s =
            .next
              { w with
                rollback.phase := next
                freeCount := s.freeCount + 1
                port :=
                  if Config.arbiterFirst s.freeCount then
                    { op :=
                        some { kind := .arming i true, start := s.monitors[i].addr, reads := 1, writes := [], lanes := .both }
                      alternation := .device }
                  else s.port }) ∧
        ∀ r, (∀ i : Fin 8, s.monitors[i].state ≠ .arming) → w.host.phase = .grantWait → s.port.alternation = .host →
          w.lines.presented = some r →
          exec .pfwDeassert s =
            .next
              (if Config.arbiterFirst s.freeCount then
                { w with
                  rollback.phase := next
                  freeCount := s.freeCount + 1
                  host.phase := .performing
                  port :=
                    { op := some { kind := .hostRead, start := r.addr, reads := 1, writes := [], lanes := .both }
                      alternation := .host } }
              else { w with rollback.phase := next, freeCount := s.freeCount + 1 })))

/-- A reset begins by POWER_ON, POWER_LOSS or RSTN (R133, R134): every block takes its reset value, the hold flag keeps its
value and PFW moves only its line; the cause is POWER for power, LINE for RSTN, and one of cause POWER that lasts stays so.
What the blocks hold while the supply is off is the model's (log 22), and so are POWER_ON on a part that still runs (log
21), a request kept through the reset (log 13) and the answer lines released (log 12). The reset ends once the supply is in
range and RSTN is deasserted: the hold flag is then set as PFW stands, the frame waits for a rise of a low chip select
(R170), and a request presented is taken afresh (R100). The memory is that which the operation cut short leaves (R132): as
it was when none is in progress or it is a read, and a configuration copy torn by it fails its check unless nothing of it
was written (R91, R96, R98; log 28). -/
def Obligations.ResetsBeginAndEnd : Prop :=
  ∀ (s : State) (r : Lines → ResetCause → State),
    (∀ l c, r l c =
      { State.reset with
        control := { hold := s.control.hold, cause := c }
        lines := { l with ready := false, error := false, hostData := 0 }
        mem := s.cutOperation.mem, freeCount := s.cutOperation.freeCount, pending := s.pending }) →
    exec .powerOn s = .next (r { s.lines with supply := .rising } .power) ∧
    exec .powerLoss s = .next (r { s.lines with supply := .off } s.control.cause) ∧
    (s.running = true → exec .rstnAssert s = .next (r { s.lines with rstn := true } .line)) ∧
    ((∀ op, s.port.op = some op → op.writes = []) →
      s.cutOperation.mem = s.mem ∧ s.cutOperation.freeCount = s.freeCount) ∧
    (∀ op c, s.port.op = some op → op.kind = .saveConfig c ∨ op.kind = .formatConfig c →
      s.cutOperation.mem = s.mem ∨ judgeConfig (readWords s.cutOperation.mem op.start op.writes.length) = none) ∧
    (s.running = false → s.lines.rstn = false →
      exec .rstnAssert s = .next { s with lines.rstn := true }) ∧
    (s.running = false →
      (s.lines.pfw = false → exec .pfwAssert s = .next { s with lines.pfw := true }) ∧
        (s.lines.pfw = true → exec .pfwDeassert s = .next { s with lines.pfw := false })) ∧
    (s.lines.supply = .rising → s.lines.rstn = true →
      exec .powerResetEnd s = .next { s with lines.supply := .inRange }) ∧
    (s.lines.rstn = true → s.lines.supply ≠ .inRange → exec .rstnDeassert s = .next { s with lines.rstn := false }) ∧
    (s.lines.supply = .rising → s.lines.rstn = false →
      exec .powerResetEnd s =
        .next
          (({ s with
            lines.supply := .inRange
            control.hold := s.lines.pfw
            frame.phase := if s.lines.csLow then .waitRise else .idle } : State).classifiedIf true)) ∧
    (s.lines.rstn = true → s.lines.supply = .inRange →
      exec .rstnDeassert s =
        .next
          (({ s with
            lines.rstn := false
            control.hold := s.lines.pfw
            frame.phase := if s.lines.csLow then .waitRise else .idle } : State).classifiedIf true))

/-- An edge a line already made, the completion of an operation that is not in progress, the end of a power reset that does
not last, and a grant while the port is busy or a reset lasts change nothing, and neither does a request presented while
another is (R99; the model's reading of events that cannot arise, log 5). A request presented while a reset lasts only
waits on the lines, to be taken when the reset ends (R100); that the answer lines are released meanwhile is the model's (log
12). -/
def Obligations.EventsThatCannotAriseChangeNothing : Prop :=
  (∀ s : State,
    (s.lines.csLow = true → exec .chipSelectFall s = .next s) ∧
    (s.lines.csLow = false → exec .chipSelectRise s = .next s) ∧
    (s.lines.pfw = true → exec .pfwAssert s = .next s) ∧
    (s.lines.pfw = false → exec .pfwDeassert s = .next s) ∧
    (s.lines.rstn = true → exec .rstnAssert s = .next s) ∧
    (s.lines.rstn = false → exec .rstnDeassert s = .next s) ∧
    (s.lines.supply ≠ .rising → exec .powerResetEnd s = .next s) ∧
    (s.running = false ∨ s.port.op ≠ none → exec .arbiterGrant s = .next s) ∧
    ∀ k : OpKind, (∀ op, s.port.op = some op → completionOf op.kind ≠ completionOf k) →
      exec (completionOf k) s = .next s) ∧
  (∀ (s : State) (addr : WordAddr) (lanes : Lanes) (data : Word),
    (s.lines.presented ≠ none →
      exec (.hostWrite addr lanes data) s = .next s ∧ exec (.hostRead addr lanes) s = .next s) ∧
    (s.lines.presented = none → s.running = false →
      exec (.hostWrite addr lanes data) s =
          .next
            { s with
              lines :=
                { s.lines with
                  presented := some { kind := .write, addr := addr, lanes := lanes, data := data }
                  ready := false, error := false, hostData := 0 } } ∧
        exec (.hostRead addr lanes) s =
          .next
            { s with
              lines :=
                { s.lines with
                  presented := some { kind := .read, addr := addr, lanes := lanes, data := 0 }
                  ready := false, error := false, hostData := 0 } }))

/-! ## Invariants -/

/-- The state after reset meets every invariant below, with QUIET and ATTN deasserted (R123, R166). -/
def Obligations.ResetMeetsTheInvariants : Prop :=
  State.reset.memoryWf ∧ State.reset.bounded ∧ State.reset.workLaw ∧ State.reset.writeAheadLaw ∧ State.reset.regionLaw ∧
    State.reset.serialLaw ∧ State.reset.shadowLaw ∧ State.reset.linesLaw ∧ State.reset.heldInReset ∧ State.reset.quiet = false ∧
    State.reset.attn = false

/-- Every step keeps the attached memory in canonical form, and the capacities: 8 queue entries, 64 set entries with distinct
blocks, a refusal count of at most 255, trigger counts of at most 15, a bit count of at most 7 (R25, R110, R167, R170,
section 9.1). -/
def Obligations.StepsKeepTheMemoryAndCapacities : Prop :=
  (∀ s t : State, s.memoryWf → step s = .next t → t.memoryWf) ∧
  (∀ s t : State, s.bounded → step s = .next t → t.bounded)

/-- Every step keeps the order of an epoch's work: in IDLE nothing of an epoch is left (R13); written is at most reserved and
reserved at most the slot count (R5); occupancy plus spills is reserved (R29); the records still owed are those from written
to reserved, in queue order (R5); the epoch's entries carry its serial; and rollback, port and start-up agree with it. -/
def Obligations.StepsKeepTheOrderOfWork : Prop :=
  ∀ s t : State, s.workLaw → step s = .next t → t.workLaw

/-- Every step keeps the write-ahead rule (R46): an entry of the epoch without an append of its own never stands ahead of the
record of its block. -/
def Obligations.StepsKeepTheWriteAheadRule : Prop :=
  ∀ s t : State, s.writeAheadLaw → step s = .next t → t.writeAheadLaw

/-- Every step keeps the law of R82: the valid descriptors of the live table overlap neither each other, nor the device area,
nor the live journal area; and no staged table or staged location can break it when it becomes live. -/
def Obligations.StepsKeepTheRegionLaw : Prop :=
  ∀ s t : State, s.regionLaw → step s = .next t → t.regionLaw

/-- Every step keeps the serial of IDLE equal to the next serial of the anchor in force while the journal is FORMATTED (R2,
R53, R176). -/
def Obligations.StepsKeepTheSerialOfTheAnchor : Prop :=
  ∀ s t : State, s.serialLaw → step s = .next t → t.serialLaw

/-- Every step keeps the hold flag as PFW stands and the frame in phase IDLE exactly while chip select is high, while the part
runs (R146, R170), and every block at its reset value while a reset lasts (R134); that a part without supply holds those
values too is the model's (log 22). -/
def Obligations.StepsKeepTheLinesAndTheReset : Prop :=
  ∀ s t : State, s.linesLaw → s.heldInReset → step s = .next t → t.linesLaw ∧ t.heldInReset

end
end

