-- ==== Sys2Proof/Laws/Decision.lean ====
section
/-! SUPPORT. What a decision point does, said once: the row of a command, its gates, its refusal (R147, R172, R174,
R175). -/

namespace Sys2Proof.Laws
open Sys2Proof.Machine

variable {s : State} {c : Command} {args : List Byte} {own : State → Decision}

/-- A row whose frame can be decided settles what the gates and the owner decide. -/
theorem command_eq (h : s.canDecide c.code args = true) :
    s.command c args own = (s.gated c own).settle c.code args := by simp [State.command, h]

/-- A row whose frame cannot be decided changes nothing. -/
theorem command_idle (h : s.canDecide c.code args = false) : s.command c args own = s := by simp [State.command, h]

/-- In READY with the hold flag clear, both gates pass every command. -/
theorem gated_ready (d : s.control.device = .ready) (h : s.control.hold = false) : s.gated c own = own s := by
  simp [State.gated, d, h]

/-- A command that neither gate names passes in every device state and whatever the hold flag. -/
theorem gated_always (d : startGate c = true) (h : holdGate c = true) : s.gated c own = own s := by
  simp [State.gated, d, h]

/-- A command that the hold gate does not name passes in READY. -/
theorem gated_held (d : s.control.device = .ready) (h : holdGate c = true) : s.gated c own = own s := by
  simp [State.gated, d, h]

/-- The two ways a gate refuses, else the owner's rule. -/
theorem gated_cases :
    s.gated c own = refusedWith .state s ∧
        (s.control.device ≠ .ready ∧ startGate c = false ∨ s.control.hold = true ∧ holdGate c = false) ∨
      s.gated c own = own s ∧ (s.control.device = .ready ∨ startGate c = true) ∧
        (s.control.hold = false ∨ holdGate c = true) := by
  unfold State.gated
  by_cases d : s.control.device ≠ .ready ∧ startGate c = false
  · exact .inl ⟨by simp [d], .inl d⟩
  · by_cases h : s.control.hold = true ∧ holdGate c = false
    · exact .inl ⟨by simp [d, h], .inr h⟩
    · refine .inr ⟨by simp [d, h], ?_, ?_⟩
      · by_cases r : s.control.device = .ready <;> simp_all
      · cases q : s.control.hold <;> simp_all

/-- A refusal settles into the frame record alone. -/
theorem settle_refused (st : Status) (code : Byte) : (refusedWith st s).settle code args = s.decided code args st [] :=
  rfl

/-- A decision settles its own state. -/
theorem settle_eq (d : Decision) (code : Byte) : d.settle code args = d.after.decided code args d.status d.reply := rfl

@[simp] theorem decided_outcome (code : Byte) (st : Status) (reply : List Byte) :
    (s.decided code args st reply).frame.outcome = some st := rfl

@[simp] theorem decided_reply (code : Byte) (st : Status) (reply : List Byte) :
    (s.decided code args st reply).frame.reply = reply := rfl

/-- A code that names a command is that command's code. -/
theorem code_of_ofCode {code : Byte} (h : Command.ofCode code = some c) : code = c.code := by
  have e : (c.code == code) = true := List.find?_some (p := fun d => Command.code d == code) h
  exact (beq_iff_eq.mp e).symm

end Sys2Proof.Laws
end

