-- ==== Sys2Proof/Laws/HostPath.lean ====
section
/-! SUPPORT. What the classification of a host request can do, said once: its outcomes, the fields it touches, and that a
second classification changes nothing more (R100 to R117). -/

namespace Sys2Proof.Laws
open Sys2Proof.Machine

/-! ## The fields a classification touches -/

/-- One state is another but for the epoch record, the set, the Host Path, the Event Unit and the lines. -/
def HostOnly (s t : State) : Prop :=
  t = { s with epoch := t.epoch, loggedSet := t.loggedSet, host := t.host, events := t.events, lines := t.lines }

theorem hostOnly_post (s : State) (r : HostRequest) (x : RegionIndex) (g : Option Serial) (a : Option Append) :
    HostOnly s (s.post r x g a) := by
  unfold State.post; split <;> rfl

theorem hostOnly_reserve_post (s : State) (b q : Nat) (r : HostRequest) (x : RegionIndex) (g : Option Serial)
    (a : Option Append) : HostOnly s ((s.reserve b q).post r x g a) := by
  unfold State.reserve State.post; split <;> split <;> rfl

theorem hostOnly_journaledWrite (s : State) (r : HostRequest) (x : RegionIndex) : HostOnly s (s.journaledWrite r x) := by
  unfold State.journaledWrite
  split
  · rfl
  split
  · exact hostOnly_post ..
  split
  · exact hostOnly_reserve_post ..
  · rfl
  · rfl

theorem hostOnly_fifthStep (s : State) (r : HostRequest) (x : RegionIndex) (c : RegionClass) (p : OutsidePolicy) :
    HostOnly s (s.fifthStep r x c p) := by
  unfold State.fifthStep
  split
  · exact hostOnly_post ..
  · rfl
  split
  · split
    · exact hostOnly_post ..
    · rfl
  · exact hostOnly_journaledWrite ..
  · rfl
  · rfl
  · rfl

theorem hostOnly_acceptWrite (s : State) (r : HostRequest) : HostOnly s (s.acceptWrite r) := by
  unfold State.acceptWrite
  split; · rfl
  split; · rfl
  split; · rfl
  split
  · rfl
  · rfl
  · rfl
  split; · rfl
  split; · rfl
  split; · rfl
  split; · rfl
  split; · rfl
  exact hostOnly_fifthStep ..

theorem hostOnly_acceptRead (s : State) (r : HostRequest) : HostOnly s (s.acceptRead r) := by
  unfold State.acceptRead
  split; · rfl
  split; · rfl
  split
  · rfl
  · rfl
  · rfl
  split; · rfl
  split; · rfl
  split <;> rfl

/-- A classification touches only the epoch record, the set, the Host Path, the Event Unit and the lines. -/
theorem hostOnly_classify (s : State) : HostOnly s s.classify := by
  unfold State.classify
  split
  · split
    · exact hostOnly_acceptWrite { s with host.phase := .classifying } _
    · exact hostOnly_acceptRead { s with host.phase := .classifying } _
  · rfl

@[simp] theorem classify_journal (s : State) : s.classify.journal = s.journal := by rw [hostOnly_classify s]
@[simp] theorem classify_rollback (s : State) : s.classify.rollback = s.rollback := by rw [hostOnly_classify s]
@[simp] theorem classify_regions (s : State) : s.classify.regions = s.regions := by rw [hostOnly_classify s]
@[simp] theorem classify_port (s : State) : s.classify.port = s.port := by rw [hostOnly_classify s]
@[simp] theorem classify_control (s : State) : s.classify.control = s.control := by rw [hostOnly_classify s]
@[simp] theorem classify_monitors (s : State) : s.classify.monitors = s.monitors := by rw [hostOnly_classify s]
@[simp] theorem classify_frame (s : State) : s.classify.frame = s.frame := by rw [hostOnly_classify s]
@[simp] theorem classify_mem (s : State) : s.classify.mem = s.mem := by rw [hostOnly_classify s]
@[simp] theorem classify_freeCount (s : State) : s.classify.freeCount = s.freeCount := by rw [hostOnly_classify s]
@[simp] theorem classify_pending (s : State) : s.classify.pending = s.pending := by rw [hostOnly_classify s]

/-! ## Its outcomes -/

/-- With nothing presented there is nothing to classify. -/
theorem classify_none {s : State} (h : s.lines.presented = none) : s.classify = s := by simp [State.classify, h]

/-- A classification does not look at the phase it finds. -/
theorem classify_phase (s : State) (p : HostPhase) :
    ({ s with host.phase := p } : State).classify =
      if s.lines.presented = none then { s with host.phase := p } else s.classify := by
  unfold State.classify
  cases h : s.lines.presented <;> simp

/-- A request classified is answered, asked of the port in GRANT_WAIT with no entry queued in its block, or held: held with
BLOCK_ORDER only while an entry is queued in its block, and with QUEUE_FULL only if it is a write. -/
theorem classify_cases {s : State} {r : HostRequest} (h : s.lines.presented = some r) :
    (s.classify.host.phase = .idle ∧ s.classify.lines.presented = none) ∨
      (s.classify = { s with host.phase := .grantWait } ∧ s.blockQueued (blockOf r.addr) = false ∧ r.kind = .read) ∨
        ∃ x, s.classify = { s with host.phase := .held x } ∧
          (x = .blockOrder → s.blockQueued (blockOf r.addr) = true) ∧ (x = .queueFull → r.kind = .write) := by
  have post : ∀ (u : State) x g a, (u.post r x g a).host.phase = .idle ∧ (u.post r x g a).lines.presented = none := by
    intro u x g a; unfold State.post; split <;> exact ⟨rfl, rfl⟩
  unfold State.classify
  simp only [h]
  cases k : r.kind
  · simp only
    unfold State.acceptRead
    split; · exact .inr (.inr ⟨_, rfl, by simp, by simp⟩)
    split; · exact .inr (.inr ⟨_, rfl, by simp, by simp⟩)
    split
    · exact .inl ⟨rfl, rfl⟩
    · exact .inl ⟨rfl, rfl⟩
    · exact .inl ⟨rfl, rfl⟩
    split; · exact .inr (.inr ⟨_, rfl, by simp, by simp⟩)
    split; · exact .inr (.inr ⟨_, rfl, by simp, by simp⟩)
    split
    · rename_i b; exact .inr (.inr ⟨_, rfl, fun _ => b, by simp⟩)
    · rename_i b; exact .inr (.inl ⟨rfl, by simpa [State.blockQueued] using b, trivial⟩)
  · simp only
    unfold State.acceptWrite
    split; · exact .inr (.inr ⟨_, rfl, by simp, by simp⟩)
    split; · exact .inr (.inr ⟨_, rfl, by simp, by simp⟩)
    split; · exact .inr (.inr ⟨_, rfl, by simp, by simp⟩)
    split
    · exact .inl ⟨rfl, rfl⟩
    · exact .inl ⟨rfl, rfl⟩
    · exact .inl ⟨rfl, rfl⟩
    split; · exact .inl ⟨rfl, rfl⟩
    split; · exact .inl ⟨rfl, rfl⟩
    split; · exact .inr (.inr ⟨_, rfl, by simp, by simp⟩)
    split; · exact .inr (.inr ⟨_, rfl, by simp, by simp⟩)
    split; · exact .inr (.inr ⟨_, rfl, by simp, by simp⟩)
    unfold State.fifthStep
    split
    · exact .inl (post ..)
    · exact .inl ⟨rfl, rfl⟩
    split
    · split
      · exact .inl (post ..)
      · exact .inl ⟨rfl, rfl⟩
    · unfold State.journaledWrite
      split; · exact .inl ⟨rfl, rfl⟩
      split; · exact .inl (post ..)
      split
      · exact .inl (post ..)
      · exact .inl ⟨rfl, rfl⟩
      · exact .inr (.inr ⟨_, rfl, by simp, by simp⟩)
    · exact .inl ⟨rfl, rfl⟩
    · exact .inr (.inr ⟨_, rfl, by simp, by simp⟩)
    · exact .inr (.inr ⟨_, rfl, by simp, by simp⟩)

/-- A second classification changes nothing more. -/
@[simp] theorem classify_classify (s : State) : s.classify.classify = s.classify := by
  cases h : s.lines.presented with
  | none => simp [classify_none h]
  | some r =>
    rcases classify_cases h with ⟨_, p⟩ | ⟨e, _⟩ | ⟨x, e, _⟩
    · exact classify_none p
    · conv_lhs => rw [e, classify_phase]
      simp [h]
    · conv_lhs => rw [e, classify_phase]
      simp [h]

/-! ## The notices of an entry that leaves the queue (R111, R113) -/

/-- The two notices to a held request are at most one classification. -/
theorem notices_eq (s : State) :
    (s.reclassify .queueFull).blockOrderNotice = s.classifiedIf (s.leaveFrees s.host.queue) := by
  unfold State.classifiedIf State.leaveFrees State.reclassify
  cases h : s.lines.presented with
  | none => simp [State.blockOrderNotice, h, classify_none h]
  | some r =>
    by_cases q : s.host.phase = .held .queueFull
    · simp [q]
      rcases classify_cases h with ⟨_, n⟩ | ⟨e, _⟩ | ⟨x, e, b, _⟩
      · simp [State.blockOrderNotice, n]
      · rw [e]; simp [State.blockOrderNotice, h, State.reclassify]
      · rw [e]
        simp only [State.blockOrderNotice, h]
        by_cases y : x = .blockOrder
        · have z : ({ s with host.phase := .held x } : State).blockQueued (blockOf r.addr) = true := b y
          simp [z]
        · simp [State.reclassify, y]
    · simp [q, State.blockOrderNotice, h, State.reclassify]
      by_cases b : s.host.phase = .held .blockOrder
      · simp only [b, State.blockQueued]
        cases z : s.host.queue.any (fun e => blockOf e.addr == blockOf r.addr) <;> simp_all
      · simp [b]

/-- After a classification the two notices change nothing more. -/
theorem notices_classify (s : State) : (s.classify.reclassify .queueFull).blockOrderNotice = s.classify := by
  rw [notices_eq]
  unfold State.classifiedIf
  split
  · exact classify_classify s
  · rfl

/-- The drain notice concerns a FORMAT alone. -/
theorem drainNotice_none {s : State} (h : s.journal.format = none) : s.drainNotice = s := by
  simp [State.drainNotice, State.draining, h]

end Sys2Proof.Laws
end

