-- ==== Sys2Proof/Laws/Memory.lean ====
section
/-! SUPPORT. The laws of the attached memory (R121, R122, R132): what a byte and a word read as after a write, and that
every memory operation keeps the canonical form. -/

namespace Sys2Proof.Laws
open Sys2Proof.Machine

/-! ## One byte -/

/-- A byte below every listed address is blank. -/
theorem readByte_of_lt (m : List Host.Cell) (a : Nat) (h : ∀ c ∈ m, a < c.1) : readByte m a = blankByte := by
  induction m with
  | nil => rfl
  | cons c rest ih =>
    have hc := h c (by simp)
    simp only [readByte, show ¬c.1 = a by omega, ite_false]
    exact ih (fun d hd => h d (by simp [hd]))

/-- A write of a byte leaves every other byte alone. -/
theorem readByte_writeByte_of_ne (m : List Host.Cell) (a b : Nat) (v : Byte) (h : b ≠ a) :
    readByte (writeByte m a v) b = readByte m b := by
  induction m with
  | nil => simp only [writeByte]; split <;> simp [readByte, h.symm]
  | cons c rest ih =>
    simp only [writeByte]
    split
    · split <;> simp [readByte, h.symm]
    split
    · next he => split <;> simp [readByte, ← he, h.symm]
    · simp [readByte, ih]

/-- A byte written in a canonical memory reads as written. -/
theorem readByte_writeByte_self (m : List Host.Cell) (a : Nat) (v : Byte) (hm : Memory.wf m) :
    readByte (writeByte m a v) a = v := by
  induction m with
  | nil => simp only [writeByte]; split <;> simp_all [readByte]
  | cons c rest ih =>
    obtain ⟨hs, hv⟩ := hm
    rw [List.pairwise_cons] at hs
    simp only [writeByte]
    split
    · next hlt =>
      split
      · next hb =>
        rw [hb]
        refine readByte_of_lt _ _ (fun d hd => ?_)
        rcases List.mem_cons.1 hd with rfl | hd
        · exact hlt
        · exact Nat.lt_trans hlt (hs.1 d hd)
      · simp [readByte]
    split
    · next he =>
      split
      · next hb => rw [hb]; exact readByte_of_lt _ _ (fun d hd => he ▸ hs.1 d hd)
      · simp [readByte]
    · next hne =>
      simp only [readByte, show ¬c.1 = a from fun h => hne h.symm, ite_false]
      exact ih ⟨hs.2, fun d hd => hv d (by simp [hd])⟩

/-- Where a written byte's entry may stand: at the address written, or where one stood before. -/
theorem mem_writeByte (m : List Host.Cell) (a : Nat) (v : Byte) (c : Host.Cell) (h : c ∈ writeByte m a v) :
    c ∈ m ∨ c = (a, v) ∧ v ≠ blankByte := by
  induction m with
  | nil => simp only [writeByte] at h; split at h <;> simp_all
  | cons d rest ih =>
    simp only [writeByte] at h
    split at h
    · split at h <;> simp_all
      tauto
    split at h
    · split at h <;> simp_all
      tauto
    · rcases List.mem_cons.1 h with h | h
      · simp [h]
      · rcases ih h with h | h
        · simp [h]
        · exact .inr h

/-- A write of a byte keeps the canonical form. -/
theorem wf_writeByte (m : List Host.Cell) (a : Nat) (v : Byte) (ha : a < memoryBytes) (hm : Memory.wf m) :
    Memory.wf (writeByte m a v) := by
  refine ⟨?_, fun c hc => ?_⟩
  · obtain ⟨hs, -⟩ := hm
    induction m with
    | nil => simp only [writeByte]; split <;> simp
    | cons d rest ih =>
      have hd := List.pairwise_cons.1 hs
      simp only [writeByte]
      split
      · next hlt =>
        split
        · exact hs
        · refine List.pairwise_cons.2 ⟨fun e he => ?_, hs⟩
          rcases List.mem_cons.1 he with rfl | he
          · exact hlt
          · exact Nat.lt_trans hlt (hd.1 e he)
      split
      · next he =>
        split
        · exact hd.2
        · exact List.pairwise_cons.2 ⟨fun e h => he ▸ hd.1 e h, hd.2⟩
      · next hn hne =>
        refine List.pairwise_cons.2 ⟨fun e he => ?_, ih hd.2⟩
        rcases mem_writeByte rest a v e he with h | ⟨rfl, -⟩
        · exact hd.1 e h
        · simp only; omega
  · rcases mem_writeByte m a v c hc with h | ⟨rfl, hv⟩
    · exact hm.2 c h
    · exact ⟨hv, ha⟩

/-! ## One word -/

theorem lowByteAt_lt (a : WordAddr) : lowByteAt a < memoryBytes := by
  have := a.isLt; simp only [lowByteAt, memoryBytes]; omega

theorem highByteAt_lt (a : WordAddr) : highByteAt a < memoryBytes := by
  have := a.isLt; simp only [highByteAt, memoryBytes]; omega

theorem lowByteAt_ne_highByteAt (a b : WordAddr) : lowByteAt a ≠ highByteAt b := by
  simp only [lowByteAt, highByteAt]; omega

theorem lowByteAt_inj {a b : WordAddr} (h : a ≠ b) : lowByteAt a ≠ lowByteAt b := by
  simp only [lowByteAt]; intro e; exact h (BitVec.eq_of_toNat_eq (by omega))

theorem highByteAt_inj {a b : WordAddr} (h : a ≠ b) : highByteAt a ≠ highByteAt b := by
  simp only [highByteAt]; intro e; exact h (BitVec.eq_of_toNat_eq (by omega))

/-- A word write leaves alone every byte whose lane it does not write. -/
theorem readByte_writeWord_of_ne (m : List Host.Cell) (a : WordAddr) (lanes : Lanes) (w : Word) (b : Nat)
    (hl : lanes = .low ∨ lanes = .both → b ≠ lowByteAt a) (hh : lanes = .high ∨ lanes = .both → b ≠ highByteAt a) :
    readByte (writeWord m a lanes w) b = readByte m b := by
  cases lanes <;> simp only [writeWord] <;> simp_all [readByte_writeByte_of_ne]

/-- A word write leaves every other word alone. -/
theorem readWord_writeWord_of_ne (m : List Host.Cell) (a b : WordAddr) (lanes : Lanes) (w : Word) (h : b ≠ a) :
    readWord (writeWord m a lanes w) b = readWord m b := by
  simp only [readWord]
  rw [readByte_writeWord_of_ne _ _ _ _ _ (fun _ => (lowByteAt_ne_highByteAt a b).symm) (fun _ => highByteAt_inj h),
    readByte_writeWord_of_ne _ _ _ _ _ (fun _ => lowByteAt_inj h) (fun _ => lowByteAt_ne_highByteAt b a)]

/-- A word write keeps the canonical form. -/
theorem wf_writeWord (m : List Host.Cell) (a : WordAddr) (lanes : Lanes) (w : Word) (hm : Memory.wf m) :
    Memory.wf (writeWord m a lanes w) := by
  cases lanes <;> simp only [writeWord]
  · exact hm
  · exact wf_writeByte _ _ _ (lowByteAt_lt a) hm
  · exact wf_writeByte _ _ _ (highByteAt_lt a) hm
  · exact wf_writeByte _ _ _ (highByteAt_lt a) (wf_writeByte _ _ _ (lowByteAt_lt a) hm)

/-- A word is its high byte before its low byte. -/
theorem bytes_of_word (w : Word) : w.extractLsb' 8 8 ++ w.extractLsb' 0 8 = w := by
  ext i hi
  simp only [BitVec.getElem_append, BitVec.getElem_extractLsb']
  split
  · simp [BitVec.getLsbD_eq_getElem hi]
  · rw [show 8 + (i - 8) = i by omega, BitVec.getLsbD_eq_getElem hi]

/-- The high byte of a word made of two. -/
theorem high_of_bytes (h l : Byte) : (h ++ l).extractLsb' 8 8 = h := by
  ext i hi
  rw [BitVec.getElem_extractLsb']
  exact BitVec.getLsbD_append.trans (by simp [BitVec.getLsbD_eq_getElem hi])

/-- The low byte of a word made of two. -/
theorem low_of_bytes (h l : Byte) : (h ++ l).extractLsb' 0 8 = l := by
  ext i hi
  rw [BitVec.getElem_extractLsb']
  exact BitVec.getLsbD_append.trans (by simp [hi])

/-- A word written reads as the lanes selected of the new word and the others of the old (R121, R156). -/
theorem readWord_writeWord_self (m : List Host.Cell) (a : WordAddr) (lanes : Lanes) (w : Word) (hm : Memory.wf m) :
    readWord (writeWord m a lanes w) a = mergeLanes (readWord m a) w lanes := by
  have hne := lowByteAt_ne_highByteAt a a
  have hl := wf_writeByte m _ (w.extractLsb' 0 8) (lowByteAt_lt a) hm
  cases lanes <;> simp only [writeWord, readWord, mergeLanes]
  · rw [readByte_writeByte_self _ _ _ hm, readByte_writeByte_of_ne _ _ _ _ hne.symm, high_of_bytes]
  · rw [readByte_writeByte_self _ _ _ hm, readByte_writeByte_of_ne _ _ _ _ hne, low_of_bytes]
  · rw [readByte_writeByte_self _ _ _ hl, readByte_writeByte_of_ne _ _ _ _ hne, readByte_writeByte_self _ _ _ hm,
      bytes_of_word]

/-! ## The words of an operation -/

/-- The i-th word of an operation's extent is not the first while i is within the address space. -/
theorem add_one_add_ne (a : WordAddr) (i : Nat) (h : i + 1 < 1048576) : a + 1 + BitVec.ofNat 20 i ≠ a := by
  intro e
  have := congrArg BitVec.toNat e
  simp only [BitVec.toNat_add, BitVec.ofNat_eq_ofNat, BitVec.toNat_ofNat] at this
  have := a.isLt
  omega

theorem add_one_add (a : WordAddr) (i : Nat) : a + 1 + BitVec.ofNat 20 i = a + BitVec.ofNat 20 (i + 1) := by
  apply BitVec.eq_of_toNat_eq
  simp only [BitVec.toNat_add, BitVec.ofNat_eq_ofNat, BitVec.toNat_ofNat]
  omega

/-- An operation's writes keep the canonical form. -/
theorem wf_writeWords (ws : List Word) : ∀ (m : List Host.Cell) (a : WordAddr) (lanes : Lanes), Memory.wf m →
    Memory.wf (writeWords m a lanes ws) := by
  induction ws with
  | nil => exact fun _ _ _ h => h
  | cons w rest ih => exact fun m a lanes h => ih _ _ _ (wf_writeWord m a lanes w h)

/-- A torn write keeps the canonical form, whatever the cut and the mixture (R132). -/
theorem wf_tornWords (mask : Word) (ws : List Word) : ∀ (m : List Host.Cell) (a : WordAddr) (lanes : Lanes) (cut : Nat),
    Memory.wf m → Memory.wf (tornWords m a lanes mask ws cut) := by
  induction ws with
  | nil => exact fun _ _ _ _ h => h
  | cons w rest ih =>
    intro m a lanes cut h
    cases cut with
    | zero => exact wf_writeWord _ _ _ _ h
    | succ k => exact ih _ _ _ _ (wf_writeWord m a lanes w h)

/-- An operation's writes leave every byte outside the lanes and words it writes alone (R121). -/
theorem readByte_writeWords (ws : List Word) : ∀ (m : List Host.Cell) (a : WordAddr) (lanes : Lanes) (b : Nat),
    (∀ i, i < ws.length → (lanes = .low ∨ lanes = .both → b ≠ lowByteAt (a + BitVec.ofNat 20 i)) ∧
      (lanes = .high ∨ lanes = .both → b ≠ highByteAt (a + BitVec.ofNat 20 i))) →
    readByte (writeWords m a lanes ws) b = readByte m b := by
  induction ws with
  | nil => exact fun _ _ _ _ _ => rfl
  | cons w rest ih =>
    intro m a lanes b h
    have h0 := h 0 (by simp)
    simp only [BitVec.add_zero] at h0
    rw [writeWords, ih _ _ _ _ (fun i hi => ?_), readByte_writeWord_of_ne _ _ _ _ _ h0.1 h0.2]
    rw [add_one_add]
    exact h (i + 1) (by simp; omega)

/-- Words outside an operation's extent keep their value (R121). -/
theorem readWord_writeWords_of_ne (ws : List Word) : ∀ (m : List Host.Cell) (a b : WordAddr) (lanes : Lanes),
    (∀ i, i < ws.length → b ≠ a + BitVec.ofNat 20 i) → readWord (writeWords m a lanes ws) b = readWord m b := by
  induction ws with
  | nil => exact fun _ _ _ _ _ => rfl
  | cons w rest ih =>
    intro m a b lanes h
    have h0 := h 0 (by simp)
    simp only [BitVec.add_zero] at h0
    rw [writeWords, ih _ _ _ _ (fun i hi => ?_), readWord_writeWord_of_ne _ _ _ _ _ h0]
    rw [add_one_add]
    exact h (i + 1) (by simp; omega)

/-- Each word of an operation's extent reads as its lanes of the word written there (R121). -/
theorem readWord_writeWords (ws : List Word) : ∀ (m : List Host.Cell) (a : WordAddr) (lanes : Lanes) (i : Nat) (w : Word),
    Memory.wf m → ws.length ≤ 1048576 → ws[i]? = some w →
    readWord (writeWords m a lanes ws) (a + BitVec.ofNat 20 i) =
      mergeLanes (readWord m (a + BitVec.ofNat 20 i)) w lanes := by
  induction ws with
  | nil => intro m a lanes i w _ _ h; simp at h
  | cons v rest ih =>
    intro m a lanes i w hm hl h
    simp only [List.length_cons] at hl
    cases i with
    | zero =>
      simp only [List.getElem?_cons_zero, Option.some.injEq] at h
      subst h
      simp only [BitVec.add_zero, writeWords]
      rw [readWord_writeWords_of_ne rest _ _ _ _ (fun i hi => (add_one_add_ne a i (by omega)).symm),
        readWord_writeWord_self _ _ _ _ hm]
    | succ i =>
      have hlt : i < rest.length := by
        simp only [List.getElem?_cons_succ] at h
        exact (List.getElem?_eq_some_iff.1 h).1
      rw [writeWords, ← add_one_add, ih _ _ _ _ _ (wf_writeWord m a lanes v hm) (by omega) (by simpa using h),
        readWord_writeWord_of_ne _ _ _ _ _ (add_one_add_ne a i (by omega))]

/-- The words read back from an address upward where an operation with both lanes wrote them (R121). -/
theorem readWords_writeWords (ws : List Word) : ∀ (m : List Host.Cell) (a : WordAddr), Memory.wf m →
    ws.length ≤ 1048576 → readWords (writeWords m a .both ws) a ws.length = ws := by
  induction ws with
  | nil => exact fun _ _ _ _ => rfl
  | cons w rest ih =>
    intro m a hm hl
    have h0 := readWord_writeWords (w :: rest) m a .both 0 w hm hl rfl
    simp only [BitVec.add_zero, mergeLanes] at h0
    simp only [List.length_cons, readWords, h0]
    congr 1
    exact ih _ _ (wf_writeWord m a .both w hm) (by simp only [List.length_cons] at hl; omega)

/-! ## A torn write (R132) -/

/-- A torn write leaves every byte outside the words of the extent alone. -/
theorem readByte_tornWords (mask : Word) (ws : List Word) : ∀ (m : List Host.Cell) (a : WordAddr) (lanes : Lanes)
    (cut b : Nat),
    (∀ i, i < ws.length → b ≠ lowByteAt (a + BitVec.ofNat 20 i) ∧ b ≠ highByteAt (a + BitVec.ofNat 20 i)) →
    readByte (tornWords m a lanes mask ws cut) b = readByte m b := by
  induction ws with
  | nil => exact fun _ _ _ _ _ _ => rfl
  | cons w rest ih =>
    intro m a lanes cut b h
    have h0 := h 0 (by simp)
    simp only [BitVec.add_zero] at h0
    cases cut with
    | zero => exact readByte_writeWord_of_ne _ _ _ _ _ (fun _ => h0.1) (fun _ => h0.2)
    | succ k =>
      rw [tornWords, ih _ _ _ _ _ (fun i hi => ?_), readByte_writeWord_of_ne _ _ _ _ _ (fun _ => h0.1) (fun _ => h0.2)]
      rw [add_one_add]
      exact h (i + 1) (by simp; omega)

end Sys2Proof.Laws
end

