-- ==== Sys2Proof/Laws/Operations.lean ====
section
/-! SUPPORT. What each operation that the commands share can do, said once: the port's grant and completion, the epoch's
ends, the run, the monitors, start-up's end, the reset. -/

namespace Sys2Proof.Laws
open Sys2Proof.Machine

/-! ## Checks -/

/-- A 24-bit mask is in range exactly below position 22 (R163, R164). -/
theorem maskInRange_iff (m : BitVec 24) : maskInRange m = true ↔ m.toNat < 4194304 := by
  unfold maskInRange
  simp only [beq_iff_eq]
  constructor
  · intro h
    have := congrArg BitVec.toNat h
    simp [BitVec.extractLsb'_toNat, Nat.shiftRight_eq_div_pow] at this
    omega
  · intro h
    apply BitVec.eq_of_toNat_eq
    simp [BitVec.extractLsb'_toNat, Nat.shiftRight_eq_div_pow]
    omega

/-- A save or a FORMAT is in progress (R54, R55, R83, R86, R94). -/
theorem storing_iff (s : State) : s.storing = true ↔ s.regions.saving = true ∨ s.journal.format ≠ none := by
  simp [State.storing]; cases s.journal.format <;> simp

/-- A check over a table's entries holds of some entry. -/
theorem any_toList_iff {α : Type} {n : Nat} (v : Vector α n) (f : α → Bool) :
    v.toList.any f = true ↔ ∃ i : Fin n, f v[i] = true := by
  simp only [List.any_eq_true, Vector.mem_toList_iff]
  constructor
  · rintro ⟨x, hx, h⟩
    obtain ⟨i, hi, e⟩ := Vector.mem_iff_getElem.mp hx
    exact ⟨⟨i, hi⟩, by simpa [e] using h⟩
  · rintro ⟨i, h⟩; exact ⟨v[i], by simp, h⟩

/-- The timer is in use exactly when the live age limit is not 0 (R3, R17). -/
theorem timed_eq (s : State) : s.timed = decide (1 ≤ s.regions.live.defaults.ageLimit.toNat) := by
  have : s.regions.live.defaults.ageLimit = 0 ↔ s.regions.live.defaults.ageLimit.toNat = 0 :=
    ⟨fun h => by simp [h], fun h => BitVec.eq_of_toNat_eq (by simpa using h)⟩
  by_cases h : s.regions.live.defaults.ageLimit = 0
  · simp [State.timed, h]
  · have h' := mt this.2 h
    rw [State.timed, decide_eq_true (show 1 ≤ s.regions.live.defaults.ageLimit.toNat by omega)]
    exact bne_iff_ne.2 h

/-! ## The memory port -/

/-- A free port that runs grants the next request (R125 to R127). -/
theorem arbiterGrant_eq {s : State} {k : OpKind} (r : s.running = true) (o : s.port.op = none)
    (h : s.nextGrant = some k) : exec .arbiterGrant s = .next (s.grant k) := by
  simp [exec, execArbiterGrant, r, o, h]

/-- A grant changes the port, the Host Path and, for a zero anchor write, the journal; nothing else (R123). -/
theorem grant_changes (s : State) (k : OpKind) :
    s.grant k =
      { s with
        port := { op := some (s.operationFor k), alternation := k.group.side }
        host := (s.grant k).host
        journal := (s.grant k).journal } := by
  cases k <;> simp only [State.grant, State.ownerGranted, State.headProgress] <;> first | rfl | (split <;> rfl)

/-- A run that is not paused has nothing to resume (R76). -/
theorem resumeRun_running {s : State} (h : s.rollback.phase ≠ .paused) : s.resumeRun = s := if_neg h

/-- The clearing of the hold flag grants at most the arbiter's own choice, on a free port beside a paused run, and counts the
free value it asked (R125, R126, R148, R160, log 29). -/
theorem clearGrant_cases (s : State) :
    s.clearGrant = s ∨
      s.port.op = none ∧ s.rollback.phase = .paused ∧
        ∃ k, s.nextGrant = some k ∧
          s.clearGrant =
            if Config.arbiterFirst s.freeCount then ({ s with freeCount := s.freeCount + 1 } : State).grant k
            else { s with freeCount := s.freeCount + 1 } := by
  unfold State.clearGrant State.clearChoice
  by_cases c : s.port.op.isNone ∧ s.resumeRun.nextGrant ≠ s.nextGrant
  · rw [if_pos c]
    cases m : s.nextGrant with
    | none => exact .inl rfl
    | some k =>
      refine .inr ⟨Option.isNone_iff_eq_none.1 c.1, ?_, k, rfl, rfl⟩
      by_contra p
      exact c.2 (by rw [resumeRun_running p])
  · rw [if_neg c]; exact .inl rfl

/-- A clock pulse moves the bit count of a frame in course and nothing else, and keeps it at most 7 (R170). -/
theorem clockPulse_changes (s : State) :
    ∃ n, s.clockPulse = { s with frame.bits := n } ∧ s.frame.bits ≤ n ∧ (s.frame.bits ≤ 7 → n ≤ 7) := by
  unfold State.clockPulse
  split
  · next h => exact ⟨_, rfl, by omega, fun _ => by omega⟩
  · exact ⟨_, rfl, le_refl _, id⟩

/-- An operation's completion keeps the canonical form (R121). -/
theorem memoryWf_afterOp (s : State) (op : Operation) (h : s.memoryWf) : (s.afterOp op).memoryWf :=
  wf_writeWords _ _ _ _ h

/-- What a torn write leaves: the memory as it was, or cut at one of its words where the record left may stand (R132, R96,
R98, R62, logs 3 and 28). -/
theorem tornMemory_cases (s : State) (op : Operation) :
    s.tornMemory op = s.mem ∨
      ∃ mask cut, cut < op.writes.length ∧ s.mayTear op mask cut = true ∧
        s.tornMemory op = tornWords s.mem op.start op.lanes mask op.writes cut := by
  simp only [State.tornMemory]
  split
  · rename_i cut h
    have m := List.mem_of_getElem? h
    rw [State.tearPoints, List.mem_filter, List.mem_range] at m
    exact .inr ⟨_, cut, m.1, m.2, rfl⟩
  · exact .inl rfl

/-- A reset cuts at most the operation in progress short, touching the memory and the free-value counter alone (R132). -/
theorem cutOperation_cases (s : State) :
    ∃ m n, (s.port.op = none → m = s.mem ∧ n = s.freeCount) ∧ s.cutOperation = { s with mem := m, freeCount := n } := by
  unfold State.cutOperation
  split
  · split
    · exact ⟨s.mem, s.freeCount, fun _ => ⟨rfl, rfl⟩, rfl⟩
    · rename_i h _; exact ⟨_, _, fun g => by simp [g] at h, rfl⟩
  · exact ⟨s.mem, s.freeCount, fun _ => ⟨rfl, rfl⟩, rfl⟩

/-- The cut does not look at the lines. -/
theorem cutOperation_lines (s : State) (l : Lines) :
    ({ s with lines := l } : State).cutOperation = { s.cutOperation with lines := l } := by
  unfold State.cutOperation
  simp only
  cases s.port.op with
  | none => rfl
  | some op => simp only; split <;> rfl

/-- A cut keeps the canonical form, whatever the free cut and mixture (R132, log 3). -/
theorem memoryWf_cutOperation (s : State) (h : s.memoryWf) : s.cutOperation.memoryWf := by
  unfold State.cutOperation
  split
  · split
    · exact h
    · rename_i op _ _
      rcases tornMemory_cases s op with e | ⟨mask, cut, -, -, e⟩
      · exact (congrArg Memory.wf e).mpr h
      · exact (congrArg Memory.wf e).mpr (wf_tornWords _ _ _ _ _ _ h)
  · exact h

/-! ## The ends of an epoch -/

/-- A cancellation keeps what R113 says it keeps. -/
theorem cancelQueue_eq (s : State) : cancelQueue s.epoch.serial s.host.queue = s.keptQueue := by
  unfold State.keptQueue
  cases s.host.queue with
  | nil => rfl
  | cons h t =>
    simp only [cancelQueue, QueueEntry.taggedWith, QueueEntry.underWay]
    congr 1
    · by_cases a : h.tag = some s.epoch.serial <;> by_cases b : h.progress = .appendInFlight <;>
        by_cases c : h.progress = .writeInProgress <;> simp [a, b, c]
    · congr 1; funext e; by_cases a : e.tag = some s.epoch.serial <;> simp [a]

/-- The run of R15, once the queue is cancelled. -/
theorem startAbortRun_eq (s : State) :
    ({ s with
        epoch := { s.epoch with state := .rollingBack, ageRunning := false }
        host.queue := s.keptQueue } : State).startAbortRun = s.abortedBase := by
  unfold State.startAbortRun State.abortedBase State.runStarts
  have ai : ∀ e c, ({ s with epoch := e, host.queue := c } : State).appendInFlight =
      c.head?.any (fun e => e.progress == .appendInFlight) := by
    intro e c; cases c <;> rfl
  simp only [ai]
  cases h1 : s.keptQueue.head?.any (fun e => e.progress == .appendInFlight) <;>
    by_cases h2 : s.rollback.run = .none <;> simp [h2, startPhase]

/-- What an abort leaves, with no FORMAT in progress, as R4 has it in every epoch (R14, R15, R20, R113, R117). -/
theorem abortEpoch_eq (s : State) (f : s.journal.format = none) : s.abortEpoch = s.aborted := by
  unfold State.abortEpoch State.aborted
  simp only [cancelQueue_eq, startAbortRun_eq]
  have fm : s.abortedBase.journal.format = none := f
  unfold State.reclassifyGrantWait
  show State.cancelNotices (if s.host.phase = .grantWait then _ else _) _ = _
  by_cases g : s.host.phase = .grantWait
  · simp only [g, if_true, beq_self_eq_true, Bool.true_or, State.classifiedIf]
    unfold State.cancelNotices State.leaveNotices
    rw [notices_classify, drainNotice_none (by simp [fm])]
    simp
  · have g' : (s.host.phase == HostPhase.grantWait) = false := by simpa using g
    simp only [g, if_false, g', Bool.false_or]
    unfold State.cancelNotices State.leaveNotices
    rw [notices_eq, drainNotice_none (by unfold State.classifiedIf; split <;> simp [fm])]
    have : s.abortedBase.leaveFrees s.abortedBase.host.queue = s.leaveFrees s.keptQueue := rfl
    rw [this]
    have e : s.entriesLeft = decide (s.abortedBase.host.queue.length < s.host.queue.length) := rfl
    rw [e]
    by_cases l : s.abortedBase.host.queue.length < s.host.queue.length <;> simp [l, State.classifiedIf]

/-- The epoch reaches IDLE, and a request held with EPOCH is classified afresh (R13, R34, R88). -/
theorem reachIdle_eq (s : State) : s.reachIdle = s.atIdle.classifiedIf (s.host.phase == .held .epoch) := by
  unfold State.reachIdle State.reclassify State.classifiedIf
  by_cases e : s.host.phase = .held .epoch <;> simp [e] <;> rfl

/-! ## The rollback run -/

/-- A finished record touches the engine and, at the end of a recovery run, the start-up step (R66, R69, R71, R76). -/
theorem finishRecord_changes (s : State) :
    s.finishRecord =
      { s with
        rollback :=
          { s.rollback with
            run := s.finishRecord.rollback.run
            phase := s.finishRecord.rollback.phase
            remaining := s.rollback.remaining - 1 }
        control := { s.control with step := s.finishRecord.control.step } } := by
  unfold State.finishRecord
  split
  · next z => split <;> simp [z]
  · rfl

/-! ## The monitors -/

/-- A fold that raises flags touches the flags alone. -/
theorem foldl_raise_changes (p : Fin 8 → Bool) (l : List (Fin 8)) : ∀ e : Events,
    l.foldl (fun e i => if p i then e.raise (.mon i) else e) e =
      { e with flags := (l.foldl (fun e i => if p i then e.raise (.mon i) else e) e).flags } := by
  induction l with
  | nil => exact fun _ => rfl
  | cons i rest ih =>
    intro e
    rw [List.foldl_cons, ih]
    split <;> rfl

/-- A write shown to the monitors touches the cells and the event flags alone (R156, R157). -/
theorem showWrite_changes (s : State) (start : WordAddr) (words : List Word) (lanes : Lanes) (source : Source) :
    s.showWrite start words lanes source =
      { s with
        monitors := (s.showWrite start words lanes source).monitors
        events.flags := (s.showWrite start words lanes source).events.flags } := by
  unfold State.showWrite
  simp only
  rw [foldl_raise_changes]

/-- Each cell is evaluated by itself (R156). -/
theorem showWrite_monitor (s : State) (start : WordAddr) (words : List Word) (lanes : Lanes) (source : Source)
    (i : Fin 8) :
    (s.showWrite start words lanes source).monitors[i] = s.monitors[i].evaluate start words lanes source := by
  simp [State.showWrite]

/-! ## FORMAT's step 2 -/

/-- Step 2 as one update: the location staged is live, the cells on it are DISARMED and the arming read of one of them is
discarded, and a write held with FORMAT_DRAIN is classified afresh (R56, R57, R101, R154). -/
theorem formatSwitch_eq (s : State) (live : Location) (off : Cell → Bool)
    (hl : live = s.journal.staged.getD s.journal.live)
    (ho : ∀ c, off c = true ↔ c.state ≠ .disarmed ∧ live.covers (c.addr.toNat / 16) = true) :
    s.formatSwitch =
      ({ s with
        journal :=
          { s.journal with
            live := live
            staged := none
            format := s.journal.format.map (fun job => { job with step := .zeroFirst }) }
        monitors := s.monitors.map (fun c => if off c then { c with state := .disarmed } else c)
        port.op := s.port.op.map (fun op =>
          match op.kind with
          | .arming i true => if off s.monitors[i] then { op with kind := .arming i false } else op
          | _ => op) } : State).classifiedIf (s.host.phase == .held .formatDrain) := by
  have eq : ∀ c : Cell, (c.state != .disarmed && live.covers (blockOf c.addr)) = off c := by
    intro c; rw [Bool.eq_iff_iff, ho]; simp [blockOf, Config.blockWords]
  subst hl
  have discard : ∀ op : Operation, ({ s with journal :=
      { s.journal with live := s.journal.staged.getD s.journal.live } } : State).discardJournalArming op =
      match op.kind with
      | .arming i true => if off s.monitors[i] then { op with kind := .arming i false } else op
      | _ => op := by
    intro ⟨kind, _, _, _, _⟩
    cases kind with
    | arming i wanted => cases wanted <;> simp [State.discardJournalArming, State.watchesJournal, eq]
    | _ => rfl
  have switched : s.formatSwitch =
      ({ s with
        journal :=
          { s.journal with
            live := s.journal.staged.getD s.journal.live
            staged := none
            format := s.journal.format.map (fun job => { job with step := .zeroFirst }) } } :
        State).disarmInJournal.classifiedIf (s.host.phase == .held .formatDrain) := by
    simp only [State.formatSwitch, State.reclassify, State.classifiedIf, beq_iff_eq]
    rfl
  rw [switched]
  congr 1
  simp only [State.disarmInJournal]
  congr 1
  · congr 1
    cases s.port.op with
    | none => rfl
    | some op => exact congrArg some (discard op)
  · ext j hj : 1
    simp only [Vector.getElem_mapIdx, Vector.getElem_map, State.watchesJournal, eq]

/-! ## Start-up's end -/

/-- The device reaches READY, and a request held with STARTING or RECOVERY is classified afresh (R136, R142). -/
theorem reachReady_eq (s : State) : s.reachReady = s.atReady.classifiedIf s.readyFrees := by
  unfold State.reachReady State.reclassify State.classifiedIf State.readyFrees
  by_cases e : s.host.phase = .held .starting
  · simp [e, State.raise, Events.raise, State.atReady]
  · by_cases e2 : s.host.phase = .held .recovery <;> simp [e, e2, State.raise, Events.raise, State.atReady]

end Sys2Proof.Laws
end

