-- ==== Sys2Proof/Laws/State.lean ====
section
/-! SUPPORT. One lemma per field per update of the state, each true by definition, so that no proof unfolds a record
update. -/

namespace Sys2Proof.Laws
open Sys2Proof.Machine

variable (s : State)

/-! A flag is raised: the Event Unit's flags alone change (R162). -/

@[simp] theorem raise_epoch (f : EventFlag) : (s.raise f).epoch = s.epoch := rfl
@[simp] theorem raise_loggedSet (f : EventFlag) : (s.raise f).loggedSet = s.loggedSet := rfl
@[simp] theorem raise_journal (f : EventFlag) : (s.raise f).journal = s.journal := rfl
@[simp] theorem raise_rollback (f : EventFlag) : (s.raise f).rollback = s.rollback := rfl
@[simp] theorem raise_regions (f : EventFlag) : (s.raise f).regions = s.regions := rfl
@[simp] theorem raise_host (f : EventFlag) : (s.raise f).host = s.host := rfl
@[simp] theorem raise_port (f : EventFlag) : (s.raise f).port = s.port := rfl
@[simp] theorem raise_control (f : EventFlag) : (s.raise f).control = s.control := rfl
@[simp] theorem raise_monitors (f : EventFlag) : (s.raise f).monitors = s.monitors := rfl
@[simp] theorem raise_events (f : EventFlag) : (s.raise f).events = s.events.raise f := rfl
@[simp] theorem raise_frame (f : EventFlag) : (s.raise f).frame = s.frame := rfl
@[simp] theorem raise_lines (f : EventFlag) : (s.raise f).lines = s.lines := rfl
@[simp] theorem raise_mem (f : EventFlag) : (s.raise f).mem = s.mem := rfl
@[simp] theorem raise_freeCount (f : EventFlag) : (s.raise f).freeCount = s.freeCount := rfl
@[simp] theorem raise_pending (f : EventFlag) : (s.raise f).pending = s.pending := rfl

/-! A request is held: its phase alone changes (R100). -/

@[simp] theorem holdHost_epoch (x : HoldReason) : (s.holdHost x).epoch = s.epoch := rfl
@[simp] theorem holdHost_loggedSet (x : HoldReason) : (s.holdHost x).loggedSet = s.loggedSet := rfl
@[simp] theorem holdHost_journal (x : HoldReason) : (s.holdHost x).journal = s.journal := rfl
@[simp] theorem holdHost_rollback (x : HoldReason) : (s.holdHost x).rollback = s.rollback := rfl
@[simp] theorem holdHost_regions (x : HoldReason) : (s.holdHost x).regions = s.regions := rfl
@[simp] theorem holdHost_host (x : HoldReason) : (s.holdHost x).host = { s.host with phase := .held x } := rfl
@[simp] theorem holdHost_port (x : HoldReason) : (s.holdHost x).port = s.port := rfl
@[simp] theorem holdHost_control (x : HoldReason) : (s.holdHost x).control = s.control := rfl
@[simp] theorem holdHost_monitors (x : HoldReason) : (s.holdHost x).monitors = s.monitors := rfl
@[simp] theorem holdHost_events (x : HoldReason) : (s.holdHost x).events = s.events := rfl
@[simp] theorem holdHost_frame (x : HoldReason) : (s.holdHost x).frame = s.frame := rfl
@[simp] theorem holdHost_lines (x : HoldReason) : (s.holdHost x).lines = s.lines := rfl
@[simp] theorem holdHost_mem (x : HoldReason) : (s.holdHost x).mem = s.mem := rfl
@[simp] theorem holdHost_freeCount (x : HoldReason) : (s.holdHost x).freeCount = s.freeCount := rfl
@[simp] theorem holdHost_pending (x : HoldReason) : (s.holdHost x).pending = s.pending := rfl

/-! A request is completed: its phase and the lines change (R99). -/

@[simp] theorem completeHost_epoch (w : Word) : (s.completeHost w).epoch = s.epoch := rfl
@[simp] theorem completeHost_loggedSet (w : Word) : (s.completeHost w).loggedSet = s.loggedSet := rfl
@[simp] theorem completeHost_journal (w : Word) : (s.completeHost w).journal = s.journal := rfl
@[simp] theorem completeHost_rollback (w : Word) : (s.completeHost w).rollback = s.rollback := rfl
@[simp] theorem completeHost_regions (w : Word) : (s.completeHost w).regions = s.regions := rfl
@[simp] theorem completeHost_host (w : Word) : (s.completeHost w).host = { s.host with phase := .idle } := rfl
@[simp] theorem completeHost_port (w : Word) : (s.completeHost w).port = s.port := rfl
@[simp] theorem completeHost_control (w : Word) : (s.completeHost w).control = s.control := rfl
@[simp] theorem completeHost_monitors (w : Word) : (s.completeHost w).monitors = s.monitors := rfl
@[simp] theorem completeHost_events (w : Word) : (s.completeHost w).events = s.events := rfl
@[simp] theorem completeHost_frame (w : Word) : (s.completeHost w).frame = s.frame := rfl
@[simp] theorem completeHost_lines (w : Word) : (s.completeHost w).lines = s.lines.answered true false w := rfl
@[simp] theorem completeHost_mem (w : Word) : (s.completeHost w).mem = s.mem := rfl
@[simp] theorem completeHost_freeCount (w : Word) : (s.completeHost w).freeCount = s.freeCount := rfl
@[simp] theorem completeHost_pending (w : Word) : (s.completeHost w).pending = s.pending := rfl

/-! A request is refused: its phase, the Event Unit and the lines change (R102). -/

@[simp] theorem refuseHost_epoch (r : HostRequest) (x : RefusalReason) : (s.refuseHost r x).epoch = s.epoch := rfl
@[simp] theorem refuseHost_loggedSet (r : HostRequest) (x : RefusalReason) : (s.refuseHost r x).loggedSet = s.loggedSet := rfl
@[simp] theorem refuseHost_journal (r : HostRequest) (x : RefusalReason) : (s.refuseHost r x).journal = s.journal := rfl
@[simp] theorem refuseHost_rollback (r : HostRequest) (x : RefusalReason) : (s.refuseHost r x).rollback = s.rollback := rfl
@[simp] theorem refuseHost_regions (r : HostRequest) (x : RefusalReason) : (s.refuseHost r x).regions = s.regions := rfl
@[simp] theorem refuseHost_host (r : HostRequest) (x : RefusalReason) : (s.refuseHost r x).host = { s.host with phase := .idle } := rfl
@[simp] theorem refuseHost_port (r : HostRequest) (x : RefusalReason) : (s.refuseHost r x).port = s.port := rfl
@[simp] theorem refuseHost_control (r : HostRequest) (x : RefusalReason) : (s.refuseHost r x).control = s.control := rfl
@[simp] theorem refuseHost_monitors (r : HostRequest) (x : RefusalReason) : (s.refuseHost r x).monitors = s.monitors := rfl
@[simp] theorem refuseHost_events (r : HostRequest) (x : RefusalReason) : (s.refuseHost r x).events = s.events.offer { kind := r.kind, addr := r.addr, lanes := r.lanes, reason := x, serial := s.epoch.offeredSerial } := rfl
@[simp] theorem refuseHost_frame (r : HostRequest) (x : RefusalReason) : (s.refuseHost r x).frame = s.frame := rfl
@[simp] theorem refuseHost_lines (r : HostRequest) (x : RefusalReason) : (s.refuseHost r x).lines = s.lines.answered false true 0 := rfl
@[simp] theorem refuseHost_mem (r : HostRequest) (x : RefusalReason) : (s.refuseHost r x).mem = s.mem := rfl
@[simp] theorem refuseHost_freeCount (r : HostRequest) (x : RefusalReason) : (s.refuseHost r x).freeCount = s.freeCount := rfl
@[simp] theorem refuseHost_pending (r : HostRequest) (x : RefusalReason) : (s.refuseHost r x).pending = s.pending := rfl

/-! An operation completes: the port is free and the memory holds its words (R121). -/

@[simp] theorem afterOp_epoch (op : Operation) : (s.afterOp op).epoch = s.epoch := rfl
@[simp] theorem afterOp_loggedSet (op : Operation) : (s.afterOp op).loggedSet = s.loggedSet := rfl
@[simp] theorem afterOp_journal (op : Operation) : (s.afterOp op).journal = s.journal := rfl
@[simp] theorem afterOp_rollback (op : Operation) : (s.afterOp op).rollback = s.rollback := rfl
@[simp] theorem afterOp_regions (op : Operation) : (s.afterOp op).regions = s.regions := rfl
@[simp] theorem afterOp_host (op : Operation) : (s.afterOp op).host = s.host := rfl
@[simp] theorem afterOp_port (op : Operation) : (s.afterOp op).port = { s.port with op := none } := rfl
@[simp] theorem afterOp_control (op : Operation) : (s.afterOp op).control = s.control := rfl
@[simp] theorem afterOp_monitors (op : Operation) : (s.afterOp op).monitors = s.monitors := rfl
@[simp] theorem afterOp_events (op : Operation) : (s.afterOp op).events = s.events := rfl
@[simp] theorem afterOp_frame (op : Operation) : (s.afterOp op).frame = s.frame := rfl
@[simp] theorem afterOp_lines (op : Operation) : (s.afterOp op).lines = s.lines := rfl
@[simp] theorem afterOp_mem (op : Operation) : (s.afterOp op).mem = writeWords s.mem op.start op.lanes op.writes := rfl
@[simp] theorem afterOp_freeCount (op : Operation) : (s.afterOp op).freeCount = s.freeCount := rfl
@[simp] theorem afterOp_pending (op : Operation) : (s.afterOp op).pending = s.pending := rfl

/-! A frame is decided: the frame record and chip select's line change (R172). -/

@[simp] theorem decided_epoch (c : Byte) (a : List Byte) (x : Status) (r : List Byte) : (s.decided c a x r).epoch = s.epoch := rfl
@[simp] theorem decided_loggedSet (c : Byte) (a : List Byte) (x : Status) (r : List Byte) : (s.decided c a x r).loggedSet = s.loggedSet := rfl
@[simp] theorem decided_journal (c : Byte) (a : List Byte) (x : Status) (r : List Byte) : (s.decided c a x r).journal = s.journal := rfl
@[simp] theorem decided_rollback (c : Byte) (a : List Byte) (x : Status) (r : List Byte) : (s.decided c a x r).rollback = s.rollback := rfl
@[simp] theorem decided_regions (c : Byte) (a : List Byte) (x : Status) (r : List Byte) : (s.decided c a x r).regions = s.regions := rfl
@[simp] theorem decided_host (c : Byte) (a : List Byte) (x : Status) (r : List Byte) : (s.decided c a x r).host = s.host := rfl
@[simp] theorem decided_port (c : Byte) (a : List Byte) (x : Status) (r : List Byte) : (s.decided c a x r).port = s.port := rfl
@[simp] theorem decided_control (c : Byte) (a : List Byte) (x : Status) (r : List Byte) : (s.decided c a x r).control = s.control := rfl
@[simp] theorem decided_monitors (c : Byte) (a : List Byte) (x : Status) (r : List Byte) : (s.decided c a x r).monitors = s.monitors := rfl
@[simp] theorem decided_events (c : Byte) (a : List Byte) (x : Status) (r : List Byte) : (s.decided c a x r).events = s.events := rfl
@[simp] theorem decided_frame (c : Byte) (a : List Byte) (x : Status) (r : List Byte) : (s.decided c a x r).frame = decidedFrame c a x r := rfl
@[simp] theorem decided_lines (c : Byte) (a : List Byte) (x : Status) (r : List Byte) : (s.decided c a x r).lines = { s.lines with csLow := true } := rfl
@[simp] theorem decided_mem (c : Byte) (a : List Byte) (x : Status) (r : List Byte) : (s.decided c a x r).mem = s.mem := rfl
@[simp] theorem decided_freeCount (c : Byte) (a : List Byte) (x : Status) (r : List Byte) : (s.decided c a x r).freeCount = s.freeCount := rfl
@[simp] theorem decided_pending (c : Byte) (a : List Byte) (x : Status) (r : List Byte) : (s.decided c a x r).pending = s.pending := rfl

/-! An anchor comes into force: the Journal Engine alone changes (R51). -/

@[simp] theorem installAnchor_epoch (c : Copy) (n : Serial) (t : Nat) : (s.installAnchor c n t).epoch = s.epoch := rfl
@[simp] theorem installAnchor_loggedSet (c : Copy) (n : Serial) (t : Nat) : (s.installAnchor c n t).loggedSet = s.loggedSet := rfl
@[simp] theorem installAnchor_journal (c : Copy) (n : Serial) (t : Nat) : (s.installAnchor c n t).journal = { s.journal with inForce := some c, anchorSerial := n, tail := t } := rfl
@[simp] theorem installAnchor_rollback (c : Copy) (n : Serial) (t : Nat) : (s.installAnchor c n t).rollback = s.rollback := rfl
@[simp] theorem installAnchor_regions (c : Copy) (n : Serial) (t : Nat) : (s.installAnchor c n t).regions = s.regions := rfl
@[simp] theorem installAnchor_host (c : Copy) (n : Serial) (t : Nat) : (s.installAnchor c n t).host = s.host := rfl
@[simp] theorem installAnchor_port (c : Copy) (n : Serial) (t : Nat) : (s.installAnchor c n t).port = s.port := rfl
@[simp] theorem installAnchor_control (c : Copy) (n : Serial) (t : Nat) : (s.installAnchor c n t).control = s.control := rfl
@[simp] theorem installAnchor_monitors (c : Copy) (n : Serial) (t : Nat) : (s.installAnchor c n t).monitors = s.monitors := rfl
@[simp] theorem installAnchor_events (c : Copy) (n : Serial) (t : Nat) : (s.installAnchor c n t).events = s.events := rfl
@[simp] theorem installAnchor_frame (c : Copy) (n : Serial) (t : Nat) : (s.installAnchor c n t).frame = s.frame := rfl
@[simp] theorem installAnchor_lines (c : Copy) (n : Serial) (t : Nat) : (s.installAnchor c n t).lines = s.lines := rfl
@[simp] theorem installAnchor_mem (c : Copy) (n : Serial) (t : Nat) : (s.installAnchor c n t).mem = s.mem := rfl
@[simp] theorem installAnchor_freeCount (c : Copy) (n : Serial) (t : Nat) : (s.installAnchor c n t).freeCount = s.freeCount := rfl
@[simp] theorem installAnchor_pending (c : Copy) (n : Serial) (t : Nat) : (s.installAnchor c n t).pending = s.pending := rfl

/-! A configuration comes into force: the Region Table alone changes (R92). -/

@[simp] theorem installConfig_epoch (c : Copy) : (s.installConfig c).epoch = s.epoch := rfl
@[simp] theorem installConfig_loggedSet (c : Copy) : (s.installConfig c).loggedSet = s.loggedSet := rfl
@[simp] theorem installConfig_journal (c : Copy) : (s.installConfig c).journal = s.journal := rfl
@[simp] theorem installConfig_rollback (c : Copy) : (s.installConfig c).rollback = s.rollback := rfl
@[simp] theorem installConfig_regions (c : Copy) : (s.installConfig c).regions = { s.regions with inForce := some c, generation := s.regions.generation + 1 } := rfl
@[simp] theorem installConfig_host (c : Copy) : (s.installConfig c).host = s.host := rfl
@[simp] theorem installConfig_port (c : Copy) : (s.installConfig c).port = s.port := rfl
@[simp] theorem installConfig_control (c : Copy) : (s.installConfig c).control = s.control := rfl
@[simp] theorem installConfig_monitors (c : Copy) : (s.installConfig c).monitors = s.monitors := rfl
@[simp] theorem installConfig_events (c : Copy) : (s.installConfig c).events = s.events := rfl
@[simp] theorem installConfig_frame (c : Copy) : (s.installConfig c).frame = s.frame := rfl
@[simp] theorem installConfig_lines (c : Copy) : (s.installConfig c).lines = s.lines := rfl
@[simp] theorem installConfig_mem (c : Copy) : (s.installConfig c).mem = s.mem := rfl
@[simp] theorem installConfig_freeCount (c : Copy) : (s.installConfig c).freeCount = s.freeCount := rfl
@[simp] theorem installConfig_pending (c : Copy) : (s.installConfig c).pending = s.pending := rfl

/-! The head leaves the queue. -/

@[simp] theorem popQueue_epoch : (s.popQueue).epoch = s.epoch := rfl
@[simp] theorem popQueue_loggedSet : (s.popQueue).loggedSet = s.loggedSet := rfl
@[simp] theorem popQueue_journal : (s.popQueue).journal = s.journal := rfl
@[simp] theorem popQueue_rollback : (s.popQueue).rollback = s.rollback := rfl
@[simp] theorem popQueue_regions : (s.popQueue).regions = s.regions := rfl
@[simp] theorem popQueue_host : (s.popQueue).host = { s.host with queue := s.host.queue.tail } := rfl
@[simp] theorem popQueue_port : (s.popQueue).port = s.port := rfl
@[simp] theorem popQueue_control : (s.popQueue).control = s.control := rfl
@[simp] theorem popQueue_monitors : (s.popQueue).monitors = s.monitors := rfl
@[simp] theorem popQueue_events : (s.popQueue).events = s.events := rfl
@[simp] theorem popQueue_frame : (s.popQueue).frame = s.frame := rfl
@[simp] theorem popQueue_lines : (s.popQueue).lines = s.lines := rfl
@[simp] theorem popQueue_mem : (s.popQueue).mem = s.mem := rfl
@[simp] theorem popQueue_freeCount : (s.popQueue).freeCount = s.freeCount := rfl
@[simp] theorem popQueue_pending : (s.popQueue).pending = s.pending := rfl

/-! A run ends: the Rollback Engine alone changes (R71). -/

@[simp] theorem endRun_epoch : (s.endRun).epoch = s.epoch := rfl
@[simp] theorem endRun_loggedSet : (s.endRun).loggedSet = s.loggedSet := rfl
@[simp] theorem endRun_journal : (s.endRun).journal = s.journal := rfl
@[simp] theorem endRun_rollback : (s.endRun).rollback = { s.rollback with run := .none, phase := .idle, remaining := 0 } := rfl
@[simp] theorem endRun_regions : (s.endRun).regions = s.regions := rfl
@[simp] theorem endRun_host : (s.endRun).host = s.host := rfl
@[simp] theorem endRun_port : (s.endRun).port = s.port := rfl
@[simp] theorem endRun_control : (s.endRun).control = s.control := rfl
@[simp] theorem endRun_monitors : (s.endRun).monitors = s.monitors := rfl
@[simp] theorem endRun_events : (s.endRun).events = s.events := rfl
@[simp] theorem endRun_frame : (s.endRun).frame = s.frame := rfl
@[simp] theorem endRun_lines : (s.endRun).lines = s.lines := rfl
@[simp] theorem endRun_mem : (s.endRun).mem = s.mem := rfl
@[simp] theorem endRun_freeCount : (s.endRun).freeCount = s.freeCount := rfl
@[simp] theorem endRun_pending : (s.endRun).pending = s.pending := rfl

/-! A write is shown to the monitors: the cells and the flags alone change (R131). -/

@[simp] theorem showWrite_epoch (a : WordAddr) (w : List Word) (l : Lanes) (x : Source) : (s.showWrite a w l x).epoch = s.epoch := rfl
@[simp] theorem showWrite_loggedSet (a : WordAddr) (w : List Word) (l : Lanes) (x : Source) : (s.showWrite a w l x).loggedSet = s.loggedSet := rfl
@[simp] theorem showWrite_journal (a : WordAddr) (w : List Word) (l : Lanes) (x : Source) : (s.showWrite a w l x).journal = s.journal := rfl
@[simp] theorem showWrite_rollback (a : WordAddr) (w : List Word) (l : Lanes) (x : Source) : (s.showWrite a w l x).rollback = s.rollback := rfl
@[simp] theorem showWrite_regions (a : WordAddr) (w : List Word) (l : Lanes) (x : Source) : (s.showWrite a w l x).regions = s.regions := rfl
@[simp] theorem showWrite_host (a : WordAddr) (w : List Word) (l : Lanes) (x : Source) : (s.showWrite a w l x).host = s.host := rfl
@[simp] theorem showWrite_port (a : WordAddr) (w : List Word) (l : Lanes) (x : Source) : (s.showWrite a w l x).port = s.port := rfl
@[simp] theorem showWrite_control (a : WordAddr) (w : List Word) (l : Lanes) (x : Source) : (s.showWrite a w l x).control = s.control := rfl
@[simp] theorem showWrite_frame (a : WordAddr) (w : List Word) (l : Lanes) (x : Source) : (s.showWrite a w l x).frame = s.frame := rfl
@[simp] theorem showWrite_lines (a : WordAddr) (w : List Word) (l : Lanes) (x : Source) : (s.showWrite a w l x).lines = s.lines := rfl
@[simp] theorem showWrite_mem (a : WordAddr) (w : List Word) (l : Lanes) (x : Source) : (s.showWrite a w l x).mem = s.mem := rfl
@[simp] theorem showWrite_freeCount (a : WordAddr) (w : List Word) (l : Lanes) (x : Source) : (s.showWrite a w l x).freeCount = s.freeCount := rfl
@[simp] theorem showWrite_pending (a : WordAddr) (w : List Word) (l : Lanes) (x : Source) : (s.showWrite a w l x).pending = s.pending := rfl

/-! A record is reported: written, the set and the pre-image change (R45). -/

@[simp] theorem reportRecord_epoch : (s.reportRecord).epoch = { s.epoch with written := s.epoch.written + 1 } := rfl
@[simp] theorem reportRecord_loggedSet : (s.reportRecord).loggedSet = markLogged s.headSequence s.loggedSet := rfl
@[simp] theorem reportRecord_journal : (s.reportRecord).journal = { s.journal with preimage := none } := rfl
@[simp] theorem reportRecord_rollback : (s.reportRecord).rollback = s.rollback := rfl
@[simp] theorem reportRecord_regions : (s.reportRecord).regions = s.regions := rfl
@[simp] theorem reportRecord_host : (s.reportRecord).host = s.host := rfl
@[simp] theorem reportRecord_port : (s.reportRecord).port = s.port := rfl
@[simp] theorem reportRecord_control : (s.reportRecord).control = s.control := rfl
@[simp] theorem reportRecord_monitors : (s.reportRecord).monitors = s.monitors := rfl
@[simp] theorem reportRecord_events : (s.reportRecord).events = s.events := rfl
@[simp] theorem reportRecord_frame : (s.reportRecord).frame = s.frame := rfl
@[simp] theorem reportRecord_lines : (s.reportRecord).lines = s.lines := rfl
@[simp] theorem reportRecord_mem : (s.reportRecord).mem = s.mem := rfl
@[simp] theorem reportRecord_freeCount : (s.reportRecord).freeCount = s.freeCount := rfl
@[simp] theorem reportRecord_pending : (s.reportRecord).pending = s.pending := rfl

/-! A refused claim dooms the epoch: its state and the flags change (R5). -/

@[simp] theorem doom_epoch : (s.doom).epoch = { s.epoch with state := .doomed } := rfl
@[simp] theorem doom_loggedSet : (s.doom).loggedSet = s.loggedSet := rfl
@[simp] theorem doom_journal : (s.doom).journal = s.journal := rfl
@[simp] theorem doom_rollback : (s.doom).rollback = s.rollback := rfl
@[simp] theorem doom_regions : (s.doom).regions = s.regions := rfl
@[simp] theorem doom_host : (s.doom).host = s.host := rfl
@[simp] theorem doom_port : (s.doom).port = s.port := rfl
@[simp] theorem doom_control : (s.doom).control = s.control := rfl
@[simp] theorem doom_monitors : (s.doom).monitors = s.monitors := rfl
@[simp] theorem doom_events : (s.doom).events = s.events.raise .doomed := rfl
@[simp] theorem doom_frame : (s.doom).frame = s.frame := rfl
@[simp] theorem doom_lines : (s.doom).lines = s.lines := rfl
@[simp] theorem doom_mem : (s.doom).mem = s.mem := rfl
@[simp] theorem doom_freeCount : (s.doom).freeCount = s.freeCount := rfl
@[simp] theorem doom_pending : (s.doom).pending = s.pending := rfl

/-! A configuration is loaded: the live location and the Region Table change (R92, R93). -/

@[simp] theorem loadConfig_epoch (c : Copy) (x : StoredConfig) : (s.loadConfig c x).epoch = s.epoch := rfl
@[simp] theorem loadConfig_loggedSet (c : Copy) (x : StoredConfig) : (s.loadConfig c x).loggedSet = s.loggedSet := rfl
@[simp] theorem loadConfig_journal (c : Copy) (x : StoredConfig) : (s.loadConfig c x).journal = { s.journal with live := x.location } := rfl
@[simp] theorem loadConfig_rollback (c : Copy) (x : StoredConfig) : (s.loadConfig c x).rollback = s.rollback := rfl
@[simp] theorem loadConfig_regions (c : Copy) (x : StoredConfig) : (s.loadConfig c x).regions = { s.regions with live := x.table, staged := none, inForce := some c, generation := x.generation } := rfl
@[simp] theorem loadConfig_host (c : Copy) (x : StoredConfig) : (s.loadConfig c x).host = s.host := rfl
@[simp] theorem loadConfig_port (c : Copy) (x : StoredConfig) : (s.loadConfig c x).port = s.port := rfl
@[simp] theorem loadConfig_control (c : Copy) (x : StoredConfig) : (s.loadConfig c x).control = s.control := rfl
@[simp] theorem loadConfig_monitors (c : Copy) (x : StoredConfig) : (s.loadConfig c x).monitors = s.monitors := rfl
@[simp] theorem loadConfig_events (c : Copy) (x : StoredConfig) : (s.loadConfig c x).events = s.events := rfl
@[simp] theorem loadConfig_frame (c : Copy) (x : StoredConfig) : (s.loadConfig c x).frame = s.frame := rfl
@[simp] theorem loadConfig_lines (c : Copy) (x : StoredConfig) : (s.loadConfig c x).lines = s.lines := rfl
@[simp] theorem loadConfig_mem (c : Copy) (x : StoredConfig) : (s.loadConfig c x).mem = s.mem := rfl
@[simp] theorem loadConfig_freeCount (c : Copy) (x : StoredConfig) : (s.loadConfig c x).freeCount = s.freeCount := rfl
@[simp] theorem loadConfig_pending (c : Copy) (x : StoredConfig) : (s.loadConfig c x).pending = s.pending := rfl

/-! A reset: every block takes its reset value (R134). -/

@[simp] theorem resetBlocks_epoch (c : ResetCause) : (s.resetBlocks c).epoch = {} := rfl
@[simp] theorem resetBlocks_loggedSet (c : ResetCause) : (s.resetBlocks c).loggedSet = [] := rfl
@[simp] theorem resetBlocks_journal (c : ResetCause) : (s.resetBlocks c).journal = {} := rfl
@[simp] theorem resetBlocks_rollback (c : ResetCause) : (s.resetBlocks c).rollback = {} := rfl
@[simp] theorem resetBlocks_regions (c : ResetCause) : (s.resetBlocks c).regions = {} := rfl
@[simp] theorem resetBlocks_host (c : ResetCause) : (s.resetBlocks c).host = {} := rfl
@[simp] theorem resetBlocks_port (c : ResetCause) : (s.resetBlocks c).port = {} := rfl
@[simp] theorem resetBlocks_control (c : ResetCause) : (s.resetBlocks c).control = { hold := s.control.hold, cause := c } := rfl
@[simp] theorem resetBlocks_monitors (c : ResetCause) : (s.resetBlocks c).monitors = Vector.replicate 8 {} := rfl
@[simp] theorem resetBlocks_events (c : ResetCause) : (s.resetBlocks c).events = {} := rfl
@[simp] theorem resetBlocks_frame (c : ResetCause) : (s.resetBlocks c).frame = {} := rfl
@[simp] theorem resetBlocks_lines (c : ResetCause) : (s.resetBlocks c).lines = { s.lines with ready := false, error := false, hostData := 0 } := rfl
@[simp] theorem resetBlocks_mem (c : ResetCause) : (s.resetBlocks c).mem = s.mem := rfl
@[simp] theorem resetBlocks_freeCount (c : ResetCause) : (s.resetBlocks c).freeCount = s.freeCount := rfl
@[simp] theorem resetBlocks_pending (c : ResetCause) : (s.resetBlocks c).pending = s.pending := rfl

end Sys2Proof.Laws
end

