-- ==== Sys2Proof/Tests/Slice0.lean ====
section
/-! SUPPORT. Tests of one step each, with the expected results of the manual's worked examples and tables, and for every
statement with premises a witness: a state and operands that meet them, clause by clause, at the clauses' bounds. -/

namespace Sys2Proof.Tests
open Sys2Proof.Machine

/-! ## The states the tests start from -/

/-- The state a command answers. -/
def after (i : Instr) (s : State) : State :=
  match exec i s with
  | .next t => t
  | .fault _ => s
  | .refused _ => s

/-- The region table of section 6.7, with the defaults of section 8.6. -/
def table : RegionTable :=
  { descs :=
      ((((Vector.replicate 16 {}).set 0 { valid := true, first := 100, last := 103, cls := .journaled }).set 1
        { valid := true, first := 40, last := 63 }).set 2 { valid := true, first := 64, last := 67, cls := .guarded }).set
        3 { valid := true, first := 104, last := 107, cls := .journaled, width := .wordOnly, policy := .refuse }
    defaults := { cls := .refuse, ageLimit := 5000, agePolicy := .abort } }

/-- The part at the end of section 8.6: the small journal, anchor A in force with next serial 47 and tail 3, IDLE. -/
def idle : State :=
  { State.reset with
    epoch := { serial := 47 }
    journal := { live := { base := 16, slots := 8 }, status := .formatted, inForce := some .a, anchorSerial := 47, tail := 3 }
    regions := { live := table, inForce := some .b, generation := 6 }
    control := { device := .ready, step := .done, cause := .line, lastN := 3 } }

/-- Epoch 47 in a state, its timer running. -/
def inState (e : EpochState) : State := { idle with epoch := { serial := 47, state := e, ageRunning := true } }

/-- Epoch 47 just begun. -/
def opened : State := inState .opened

/-- The part under the power warning. -/
def held (s : State) : State := { s with control.hold := true, lines.pfw := true }

/-- The part while RSTN is asserted. -/
def inReset : State := { State.reset with lines.rstn := true }

/-- A state with an operation in progress. -/
def busy (s : State) (op : Operation) : State := { s with port.op := some op }

/-- A state with a FORMAT at a step, the location of section 3.11 staged. -/
def formatting (step : FormatStep) : State :=
  { idle with
    journal :=
      { idle.journal with
        status := .formatting, staged := some { base := 700, slots := 12 }
        format := some { old := idle.journal.live, step := step } } }

/-- A state with one host request presented, in a phase. -/
def asking (s : State) (kind : AccessKind) (addr : WordAddr) (phase : HostPhase) : State :=
  { s with host.phase := phase, lines.presented := some { kind := kind, addr := addr, lanes := .both, data := 7 } }

/-- A state with a write queue. -/
def queueing (s : State) (q : List QueueEntry) : State := { s with host.queue := q }

/-- A state with words of the attached memory set from an address upward. -/
def storing (s : State) (a : WordAddr) (ws : List Word) : State := { s with mem := writeWords s.mem a .both ws }

/-- An entry of epoch 47 for word 1,600, the first of its block. -/
def entry (p : Progress) : QueueEntry :=
  { addr := 1600, data := 7, lanes := .both, region := .region 0, tag := some 47
    append := some { sequence := 0, spill := false }, progress := p }

/-- An entry of tag NONE for word 640. -/
def plainEntry : QueueEntry :=
  { addr := 640, data := 0x8001, lanes := .both, region := .region 1, tag := none, append := none
    progress := .writeWaiting }

/-- Epoch 47 with block 100 in the set and its record owed. -/
def covered (p : Progress) : State :=
  { queueing opened [entry p] with
    epoch := { opened.epoch with reserved := 1 }
    loggedSet := [{ block := 100, state := .pending, sequence := 0 }] }

/-- A frame record in a phase. -/
def inFrame (s : State) (f : Frame) : State := { s with frame := f, lines.csLow := true }

/-- A cell on a word. -/
def cell (state : CellState) (addr : WordAddr) (shadow : Word) : Cell :=
  { state := state, addr := addr, mask := 0xFFFF, compare := 0, trigger := .arrive, shadow := shadow }

/-- A state with cell 0 as given. -/
def watching (s : State) (c : Cell) : State := { s with monitors := s.monitors.set 0 c }

/-- A rollback of epoch 47 with one record left. -/
def running (run : Run) (phase : RollbackPhase) (n : Nat) : State :=
  { inState .rollingBack with
    epoch := { (inState .rollingBack).epoch with reserved := n, written := n, ageRunning := false }
    rollback := { run := run, phase := phase, expected := 47, baseTail := 3, remaining := n } }

/-- Start-up at a step. -/
def starting (d : DeviceState) (step : StartStep) : State :=
  { idle with control := { device := d, step := step, cause := .line }, journal.status := .unformatted }

/-- A pre-image of 16 words. -/
def preimage : List Word := List.replicate 16 0x0305

/-! ## The words the manual works out -/

/-- Chapter 12.1, Worked example: an anchor's check word. -/
theorem test_anchor_check_word :
    anchorWords 47 3 { base := 16, slots := 8 } = [0x0000, 0x002F, 0x0003, 0x0008, 0x0010, 0x0000, 0x0000, 0x3C14] := by
  decide

/-- Section 3.1: a journal of 5 slots at base block 40 occupies the blocks 40 to 46; section 3.11: 12 slots take 17. -/
theorem test_location_blocks :
    Location.last { base := 40, slots := 5 } = 46 ∧ Location.last { base := 700, slots := 12 } = 716 := by decide

/-- Section 1.12: slot s of the small journal begins at word 256 + 22 × s; slot 5 is words 366 to 387. -/
theorem test_slot_start : idle.journal.live.slotStart 5 = 366 := by decide

/-- Chapter 12.1: the attribute word of a JOURNALED, WORD_ONLY, REFUSE descriptor: 1, 1, 1, 1 in its four fields. -/
theorem test_attribute_word :
    Descriptor.attributes
      { valid := true, first := 104, last := 107, cls := .journaled, width := .wordOnly, policy := .refuse } = 0x0055 := by
  decide

/-! ## Frames written out from chapter 12.2 -/

theorem test_decode_begin : decodeFrame 0x20 [] = some .begin := by decide

theorem test_decode_setJournal : decodeFrame 0x30 [0x02, 0xBC, 0x00, 0x0C] = some (.setJournal 700 12) := by decide

theorem test_decode_setRegion :
    decodeFrame 0x40 [3, 1, 0, 104, 0, 107, 1, 1, 1] = some (.setRegion 3 1 104 107 1 1 1) := by decide

theorem test_decode_armMonitor :
    decodeFrame 0x50 [0, 0x00, 0x06, 0x40, 0xFF, 0xFF, 0x00, 0x00, 1] = some (.armMonitor 0 1600 0xFFFF 0 1) := by decide

theorem test_decode_clearEvents : decodeFrame 0x12 [0x00, 0x00, 0x11] = some (.clearEvents 0x11) := by decide

theorem test_decode_unknown : decodeFrame 0x00 [1] = some (.badCommandFrame 0x00 [1]) := by decide

/-- No row of spec/opcode_table.json has bits. -/
theorem test_no_table_word : decodeTableWord 16 0x20 = none ∧ State.reset.withFetchWord 16 0x20 = State.reset := by decide

/-! ## Terms that are not well-formed -/

theorem test_ill_formed_known_code : (Instr.badCommandFrame 0x20 []).wellFormed = false := by decide

set_option maxRecDepth 4000 in
theorem test_ill_formed_too_long : (Instr.badCommandFrame 0x00 (List.replicate 256 0)).wellFormed = false := by decide

set_option maxRecDepth 4000 in
theorem test_well_formed_longest : (Instr.badCommandFrame 0x00 (List.replicate 255 0)).wellFormed = true := by decide

/-! ## Management commands -/

/-- Section 8.6: the STATUS taken after step 12. -/
theorem test_status :
    (after .status idle).frame.reply =
      [2, 0, 2, 0, 0, 0, 0, 47, 0, 0, 0, 0, 0, 0, 0, 0, 0, 0, 0, 1, 0, 3, 0, 0, 0, 0, 0, 0, 0, 47, 0, 0, 0, 6] := by
  decide

/-- Section 9.7 step 3. -/
theorem test_begin :
    (after .begin idle).epoch = { serial := 47, state := .opened, ageRunning := true } ∧
      (after .begin idle).frame.reply = [0, 0, 0, 47] := by decide

theorem test_begin_in_open : (after .begin opened).frame.outcome = some .state := by decide

/-- Section 1.12 step 7. -/
theorem test_commit :
    (after .commit { opened with epoch.ageElapsed := 37 }).epoch =
      { serial := 47, state := .closing, ageElapsed := 37 } := by decide

/-- Section 1.13 step 12. -/
theorem test_commit_doomed : (after .commit (inState .doomed)).frame.outcome = some .doomed := by decide

/-- Section 9.7 steps 10 and 11: the waiting entry is removed and the run of the one record starts. -/
theorem test_abort :
    let s := { queueing opened [entry .writeWaiting, plainEntry] with epoch := { opened.epoch with reserved := 1, written := 1 } }
    (after .abort s).host.queue = [plainEntry] ∧
      (after .abort s).rollback = { run := .abort, phase := .read, expected := 47, baseTail := 3, remaining := 1 } := by
  decide

/-- R113: an append in flight stays, and the run waits for it. -/
theorem test_abort_in_flight :
    (after .abort (covered .appendInFlight)).host.queue = [entry .appendInFlight] ∧
      (after .abort (covered .appendInFlight)).rollback.run = .none := by decide

theorem test_renew : (after .renew { opened with epoch.ageElapsed := 37 }).epoch = opened.epoch := by decide

/-- Section 1.12 step 2, as READ_SET lists it (chapter 12.3). -/
theorem test_readSet :
    (after (.readSet 0) (covered .appendWaiting)).frame.reply =
      [1, 0, 0, 0, 47, 1, 0, 0, 0, 1, 0, 100, 0, 0, 0] ++ List.replicate 35 0 := by decide

/-- Section 3.11 step 1. -/
theorem test_setJournal :
    (after (.setJournal 700 12) idle).frame.reply = [0, 16, 0, 8, 0x02, 0xBC, 0, 12] ∧
      (after (.setJournal 700 12) idle).journal.staged = some { base := 700, slots := 12 } := by decide

theorem test_setJournal_on_region : (after (.setJournal 95 5) idle).frame.outcome = some .conflict := by decide

/-- Section 3.11 step 2: queued writes stand, and the location waits. -/
theorem test_format_drains :
    (after .format { queueing idle [plainEntry] with journal.staged := some { base := 700, slots := 12 } }).journal.format =
      some { old := { base := 16, slots := 8 }, step := .drain } := by decide

/-- Section 3.11 step 3, with an empty queue. -/
theorem test_format_switches :
    (after .format { idle with journal.staged := some { base := 700, slots := 12 } }).journal.live =
      { base := 700, slots := 12 } := by decide

/-- Section 5.7 step 2: staged in an open epoch, the live table as it was. -/
theorem test_setRegion :
    (after (.setRegion 4 1 200 203 1 1 1) opened).frame.reply = [1] ∧
      (after (.setRegion 4 1 200 203 1 1 1) opened).regions.live = table := by decide

/-- Section 5.7 step 4: blocks 20 to 26 lie in the live journal area. -/
theorem test_setRegion_conflict : (after (.setRegion 4 1 20 30 0 0 0) opened).frame.outcome = some .conflict := by decide

theorem test_getRegion :
    (after (.getRegion 3) idle).frame.reply =
      [3, 1, 0, 104, 0, 107, 1, 1, 1, 0, 1, 0, 104, 0, 107, 1, 1, 1, 1, 0x13, 0x88, 1, 1, 0x13, 0x88, 1] := by decide

/-- Section 5.7 step 6: the live age limit stays. -/
theorem test_setDefaults :
    (after (.setDefaults 1 2000 1) opened).frame.reply = [1] ∧
      (after (.setDefaults 1 2000 1) opened).regions.live.defaults.ageLimit = 5000 := by decide

/-- Section 5.7 step 10, with copy B in force and generation 6: copy A, generation 7. -/
theorem test_saveConfig :
    (after .saveConfig idle).frame.reply = [0, 0, 0, 0, 7] ∧ (after .saveConfig idle).regions.saving = true := by decide

/-- Section 9.7 step 1. -/
theorem test_armMonitor :
    (after (.armMonitor 0 1600 0xFFFF 0 1) idle).monitors[0] = cell .arming 1600 0 ∧
      (after (.armMonitor 0 1600 0xFFFF 0 1) idle).frame.outcome = some .accepted := by decide

/-- R153 check 3: a word of the live journal area. -/
theorem test_armMonitor_journal : (after (.armMonitor 0 300 0xFFFF 0 1) idle).frame.outcome = some .badArgument := by
  decide

/-- R155, R154: the arming read in progress is to be discarded. -/
theorem test_disarmMonitor :
    (after (.disarmMonitor 0)
        (busy (watching idle (cell .arming 1600 0)) (readOp (.arming 0 true) 1600 1))).port.op =
      some (readOp (.arming 0 false) 1600 1) := by decide

/-- Section 9.7, after step 12: cell 0 is MISMATCH with count 1 and last source HOST. -/
theorem test_getMonitor :
    (after (.getMonitor 0) (watching idle { cell .mismatch 1600 0x0305 with count := 1 })).frame.reply =
      [0, 3, 0, 0x06, 0x40, 0xFF, 0xFF, 0, 0, 1, 0x03, 0x05, 1, 0] := by decide

theorem test_readEvents :
    (after .readEvents { idle with events := { flags := 0x10, enables := 0x11 } }).frame.reply =
      [0, 0, 0x10, 0, 0, 0x11] := by decide

/-- Section 10.5 step 4. -/
theorem test_clearEvents :
    (after (.clearEvents 0x10) { idle with events := { flags := 0x11 } }).events.flags = 0x01 ∧
      (after (.clearEvents 0x10) { idle with events := { flags := 0x11 } }).frame.reply = [0, 0, 0x11] := by decide

/-- Section 10.5 step 1: HOST_REFUSAL and COMMIT_DONE. -/
theorem test_setEventEnables :
    (after (.setEventEnables 0x11) idle).events.enables = 0x11 ∧
      (after (.setEventEnables 0x400000) idle).frame.outcome = some .badArgument := by decide

/-- Section 10.5 step 2: WRITE, 100, BOTH, DEVICE_AREA, 0. -/
theorem test_readFault :
    (after .readFault { after (.hostWrite 100 .both 0) idle with frame := {} }).frame.reply =
      [1, 1, 0, 0, 100, 3, 0, 0, 0, 0, 0, 1] := by decide

/-- Section 10.5 step 7. -/
theorem test_clearFault :
    (after .clearFault { idle with events := { refusals := 3 } }).events.refusals = 0 ∧
      (after .clearFault { idle with events := { refusals := 3 } }).frame.reply = [0, 0, 0, 0, 0, 0, 0, 0, 0, 0, 0, 3] := by
  decide

theorem test_restart :
    (after .restart idle).control.restartPending = true ∧ (after .restart idle).epoch = idle.epoch := by decide

theorem test_badCommandFrame : (after (.badCommandFrame 0x00 [1, 2]) idle).frame.outcome = some .badCommand := by decide

/-! ## The lines and bytes of the management port -/

theorem test_chipSelectFall : (after .chipSelectFall idle).frame.phase = .code := by decide

/-- R135: the frame's end after a taken RESTART is a reset of cause COMMAND. -/
theorem test_chipSelectRise_restart :
    (after .chipSelectRise (after .restart idle)).control = { cause := .command } ∧
      (after .chipSelectRise (after .restart idle)).epoch = {} := by decide

/-- Section 11.7 step 3: the count byte 0 is the decision point. -/
theorem test_byte_decides :
    (after (.managementByteComplete 0) (inFrame idle { phase := .count, code := 0x20 })).frame =
      decidedFrame 0x20 [] .ok [0, 0, 0, 47] := by decide

/-- R170: a rising edge counts one bit of the byte in hand, a completed byte returns the count to 0, and in WAIT_RISE every
edge is ignored. -/
theorem test_clockPulse :
    (inFrame idle { phase := .arguments, bits := 6 }).clockPulse.frame.bits = 7 ∧
      (after (.managementByteComplete 9) (inFrame idle { phase := .arguments, bits := 7, count := 3 })).frame.bits = 0 ∧
      (inFrame idle { phase := .waitRise }).clockPulse.frame.bits = 0 := by decide

/-- R170, section 11.7: the reply byte 0x2F is driven most significant bit first, so its third bit is 1 and its fourth 0. -/
theorem test_dataOutBit :
    (inFrame idle { decidedFrame 0x20 [] .ok [0x2F] with phase := .reply, bits := 2 }).dataOutBit = some true ∧
      (inFrame idle { decidedFrame 0x20 [] .ok [0x2F] with phase := .reply, bits := 3 }).dataOutBit = some false := by decide

/-! ## Host requests -/

/-- Section 6.7 step 1. -/
theorem test_hostWrite_miss :
    (after (.hostWrite 1600 .both 7) opened).host.queue = [entry .appendWaiting] ∧
      (after (.hostWrite 1600 .both 7) opened).lines.ready = true := by decide

/-- Section 6.7 step 4: one lane of a WORD_ONLY region. -/
theorem test_hostWrite_width :
    (after (.hostWrite 1664 .low 0) opened).events.fault.map (fun f => f.reason) = some .width ∧
      (after (.hostWrite 1664 .low 0) opened).lines.error = true := by decide

/-- Section 6.7 step 8: no queued entry in block 56. -/
theorem test_hostRead : (after (.hostRead 900 .both) (covered .appendInFlight)).host.phase = .grantWait := by decide

/-- Section 6.7 step 15: an entry lies in block 100. -/
theorem test_hostRead_blockOrder :
    (after (.hostRead 1601 .both) (covered .appendInFlight)).host.phase = .held .blockOrder := by decide

theorem test_hostReadComplete :
    (after .hostReadComplete
        (busy (asking (storing idle 900 [0x1234]) .read 900 .performing) (readOp .hostRead 900 1))).lines.hostData =
      0x1234 := by decide

/-! ## The memory port -/

/-- Section 1.12 step 5: the block read of block 100 is words 1,600 to 1,615. -/
theorem test_arbiterGrant : (after .arbiterGrant (covered .appendWaiting)).port.op = some (readOp .appendRead 1600 16) := by
  decide

/-- Section 7.6 step 1: the alternation state DEVICE lets the host read go first. -/
theorem test_arbiterGrant_host :
    (after .arbiterGrant (asking (queueing idle [plainEntry]) .read 900 .grantWait)).port =
      { op := some (readOp .hostRead 900 1), alternation := .host } := by decide

/-- Section 9.7 step 6: a write of the low lane alone, the entry retires. -/
theorem test_queueWordWriteComplete :
    let s := busy (queueing (storing opened 1600 [0x0305]) [entry .writeInProgress])
      { kind := .queueWrite, start := 1600, reads := 0, writes := [0xAA00], lanes := .low }
    readWord (after .queueWordWriteComplete s).mem 1600 = 0x0300 ∧ (after .queueWordWriteComplete s).host.queue = [] := by
  decide

/-- Section 9.7 step 8: the high lane brings the shadow 0x0300 to 0x0000, cell 0 arrives. -/
theorem test_queueWordWriteComplete_monitor :
    let s := busy (queueing (watching opened (cell .mismatch 1600 0x0300)) [entry .writeInProgress])
      { kind := .queueWrite, start := 1600, reads := 0, writes := [0x00FF], lanes := .high }
    (after .queueWordWriteComplete s).monitors[0] = { cell .matching 1600 0 with count := 1 } ∧
      (after .queueWordWriteComplete s).events.flags = 0x4000 := by decide

theorem test_appendBlockReadComplete :
    (after .appendBlockReadComplete
        (busy (storing (covered .appendInFlight) 1600 preimage) (readOp .appendRead 1600 16))).journal.preimage =
      some preimage := by decide

/-- Section 6.7 step 13: the record is LOGGED and the head's word write is next. -/
theorem test_appendSlotWriteComplete :
    let s := busy (covered .appendInFlight) (writeOp .appendWrite 322 (recordWords false 47 0 100 preimage))
    (after .appendSlotWriteComplete s).loggedSet = [{ block := 100, state := .logged, sequence := 0 }] ∧
      (after .appendSlotWriteComplete s).host.queue = [entry .writeWaiting] := by decide

/-- Section 9.7 step 11: slot 3 is valid. -/
theorem test_rollbackSlotReadComplete :
    (after .rollbackSlotReadComplete
        (busy (storing (running .abort .read 1) 322 (recordWords false 47 0 100 preimage))
          (readOp .rollbackRead 322 22))).rollback.phase = .restore 100 preimage := by decide

/-- R70: a slot of zeros is damage. -/
theorem test_rollbackSlotReadComplete_damage :
    (after .rollbackSlotReadComplete (busy (running .abort .read 1) (readOp .rollbackRead 322 22))).rollback =
      { run := .abort, phase := .close, expected := 47, baseTail := 3, remaining := 0, damage := 1, lastDamage := 1 } := by
  decide

/-- Section 9.7 step 11: the restore arrives with source ROLLBACK, and the run goes to its anchor. -/
theorem test_restoreWriteComplete :
    let s := busy (watching (running .abort (.restore 100 preimage) 1) { cell .mismatch 1600 0 with compare := 0x0305 })
      (writeOp .restore 1600 preimage)
    (after .restoreWriteComplete s).monitors[0].lastSource = .rollback ∧
      (after .restoreWriteComplete s).rollback.phase = .close := by decide

/-- Section 1.12 step 13, with the numbers of epoch 47: serial 48, tail (3 + 2) mod 8 = 5, copy B. -/
theorem test_commitAnchorWriteComplete :
    let s := busy { inState .closing with epoch := { (inState .closing).epoch with reserved := 2, written := 2 } }
      (writeOp (.commitAnchor .b) 136 (anchorWords 48 5 idle.journal.live))
    (after .commitAnchorWriteComplete s).epoch = { serial := 48 } ∧
      (after .commitAnchorWriteComplete s).journal =
        { idle.journal with inForce := some .b, anchorSerial := 48, tail := 5 } := by decide

/-- Section 9.7 step 12. -/
theorem test_abortAnchorWriteComplete :
    let s := busy { running .abort .close 0 with epoch := { (running .abort .close 0).epoch with reserved := 1, written := 1 } }
      (writeOp (.abortAnchor .b) 136 (anchorWords 48 4 idle.journal.live))
    (after .abortAnchorWriteComplete s).epoch = { serial := 48 } ∧ (after .abortAnchorWriteComplete s).journal.tail = 4 ∧
      (after .abortAnchorWriteComplete s).events.flags = 2 := by decide

/-- Section 3.11 step 4. -/
theorem test_zeroAnchorWriteComplete :
    (after .zeroAnchorWriteComplete
        (busy (formatting .zeroFirst) (writeOp (.zeroAnchor .b) 136 zeroAnchorWords))).journal.format =
      some { old := idle.journal.live, step := .zeroSecond } := by decide

/-- Section 3.11 step 5: copy A in force, the generation one higher, CONFIG_SAVED not set. -/
theorem test_formatConfigWriteComplete :
    let s := busy (formatting .config) (writeOp (.formatConfig .a) 0 (configWords (formatting .config).configToStore))
    (after .formatConfigWriteComplete s).regions.inForce = some .a ∧
      (after .formatConfigWriteComplete s).regions.generation = 7 ∧ (after .formatConfigWriteComplete s).events = {} := by
  decide

/-- R60: the last slot is followed by the final anchor. -/
theorem test_zeroSlotWriteComplete :
    (after .zeroSlotWriteComplete (busy (formatting (.slots 7)) (writeOp .zeroSlot 410 zeroSlotWords))).journal.format =
      some { old := idle.journal.live, step := .anchor } := by decide

/-- Section 3.11 step 7. -/
theorem test_formatAnchorWriteComplete :
    let s := busy (formatting .anchor) (writeOp .formatAnchor 128 (anchorWords 1 0 idle.journal.live))
    (after .formatAnchorWriteComplete s).journal.status = .formatted ∧ (after .formatAnchorWriteComplete s).epoch.serial = 1 ∧
      (after .formatAnchorWriteComplete s).events.flags = 0x400 := by decide

/-- Section 5.7 step 12. -/
theorem test_saveConfigWriteComplete :
    let s := busy { idle with regions.saving := true } (writeOp (.saveConfig .a) 0 (configWords idle.configToStore))
    (after .saveConfigWriteComplete s).regions = { idle.regions with inForce := some .a, generation := 7 } ∧
      (after .saveConfigWriteComplete s).events.flags = 0x800 := by decide

/-- Section 9.7 step 2: cell 0 is MISMATCH with shadow 0x0305. -/
theorem test_armingReadComplete :
    (after .armingReadComplete
        (busy (watching (storing idle 1600 [0x0305]) (cell .arming 1600 0)) (readOp (.arming 0 true) 1600 1))).monitors[0] =
      cell .mismatch 1600 0x0305 := by decide

/-! ## Start-up -/

set_option maxRecDepth 4000 in
/-- Section 8.6 step 2: copy B, with the larger generation, is loaded, and the anchors are read next. -/
theorem test_configReadComplete :
    let old : StoredConfig := { generation := 5, location := idle.journal.live, table := { table with defaults := {} } }
    let s := busy
      { storing inReset 64 (configWords { generation := 6, location := idle.journal.live, table := table }) with
        lines.rstn := false, control.firstCopy := some (configWords old) }
      (readOp (.configRead .b) 64 64)
    (after .configReadComplete s).regions = { live := table, inForce := some .b, generation := 6 } ∧
      (after .configReadComplete s).control.step = .anchorRead := by decide

/-- Section 8.6 step 3: anchor A fails its check, and B is in force with tail 0. -/
theorem test_anchorReadComplete :
    let torn : List Word := (anchorWords 47 3 idle.journal.live).take 4 ++ (anchorWords 45 4 idle.journal.live).drop 4
    let s := busy
      { storing (starting .recovering .anchorRead) 136 (anchorWords 46 0 idle.journal.live) with
        control.firstCopy := some torn }
      (readOp (.anchorRead .b) 136 8)
    (after .anchorReadComplete s).journal.inForce = some .b ∧ (after .anchorReadComplete s).journal.anchorSerial = 46 ∧
      (after .anchorReadComplete s).control.step = .scan := by decide

/-- Section 8.6 step 7: slot 3 holds a record of epoch 43, and the scan ends with n = 3. -/
theorem test_scanSlotReadComplete :
    let s := busy
      { storing (starting .recovering .scan) 322 (recordWords false 43 3 100 preimage) with
        journal.anchorSerial := 46, journal.tail := 0, control.scanIndex := 3 }
      (readOp .scanRead 322 22)
    (after .scanSlotReadComplete s).rollback =
      { run := .recovery, phase := .read, expected := 46, baseTail := 0, remaining := 3 } := by decide

/-- Section 8.6 step 12. -/
theorem test_recoveryAnchorWriteComplete :
    let s := busy
      { starting .recovering .anchorWrite with
        journal.anchorSerial := 46, journal.tail := 0, journal.inForce := some .b, control.scanIndex := 3 }
      (writeOp (.recoveryAnchor .a) 128 (anchorWords 47 3 idle.journal.live))
    (after .recoveryAnchorWriteComplete s).journal = idle.journal ∧
      (after .recoveryAnchorWriteComplete s).control.device = .ready ∧
      (after .recoveryAnchorWriteComplete s).control.lastN = 3 ∧
      (after .recoveryAnchorWriteComplete s).events.flags = 0xC0 := by decide

/-! ## Time, power and reset -/

theorem test_ageTick : (after .ageTick opened).epoch.ageElapsed = 1 ∧ after .ageTick idle = idle := by decide

/-- R19, R20: the tick that reaches the limit under policy ABORT. -/
theorem test_ageTick_expires :
    (after .ageTick { opened with epoch.ageElapsed := 4999 }).epoch.state = .rollingBack ∧
      (after .ageTick { opened with epoch.ageElapsed := 4999 }).events.flags = 8 := by decide

theorem test_ageExpiry :
    after .ageExpiry { opened with epoch.ageElapsed := 4999 } = after .ageTick { opened with epoch.ageElapsed := 4999 } ∧
      after .ageExpiry opened = opened := by decide

/-- R146, R119: the hold flag, HOLD_ENTERED, and a read in GRANT_WAIT held. -/
theorem test_pfwAssert :
    (after .pfwAssert (asking idle .read 900 .grantWait)).host.phase = .held .power ∧
      (after .pfwAssert (asking idle .read 900 .grantWait)).events.flags = 0x1000 := by decide

/-- R148: the request held with POWER is classified afresh. -/
theorem test_pfwDeassert :
    (after .pfwDeassert (asking (held idle) .read 900 (.held .power))).host.phase = .grantWait ∧
      (after .pfwDeassert (asking (held idle) .read 900 (.held .power))).events.flags = 0x2000 := by decide

/-- R148, R128, R160: an arming read beside a paused run may be the arbiter's choice as the hold flag clears; an entry that
waits goes before it, and so does the read that was held with POWER, with the alternation state DEVICE. -/
theorem test_pfwDeassertBesideAPausedRun :
    let s := watching (running .abort .paused 1) (cell .arming 1600 0)
    s.clearChoice = some (.arming 0 true) ∧ (queueing s [plainEntry]).clearChoice = none ∧
      (let t := after .pfwDeassert (asking (held s) .read 640 (.held .power))
       t.host.phase = .grantWait ∧ t.port.op = none ∧ t.nextGrant = some .hostRead) ∧
      (asking { s with port.alternation := .host } .read 640 .grantWait).clearChoice = some (.arming 0 true) ∧
      (asking { running .abort .paused 1 with port.alternation := .host } .read 640 .grantWait).clearChoice =
        some .hostRead := by decide

theorem test_powerOn :
    (after .powerOn idle).control = {} ∧ (after .powerOn idle).running = false := by decide

theorem test_powerLoss :
    (after .powerLoss (storing opened 1600 [7])).epoch = {} ∧
      readWord (after .powerLoss (storing opened 1600 [7])).mem 1600 = 7 := by decide

/-- R133: the hold flag takes the level of PFW at the end of the reset. -/
theorem test_powerResetEnd :
    (after .powerResetEnd { State.reset with lines.supply := .rising, lines.pfw := true }).control.hold = true ∧
      (after .powerResetEnd { State.reset with lines.supply := .rising }).running = true := by decide

/-- Section 8.6 step 0. -/
theorem test_rstnAssert :
    (after .rstnAssert opened).control = { cause := .line } ∧ (after .rstnAssert opened).epoch.serial = 0 := by decide

/-- Section 8.6 step 1: the read presented is held with STARTING. -/
theorem test_rstnDeassert :
    (after .rstnDeassert (asking inReset .read 1600 .idle)).host.phase = .held .starting := by decide

/-- R129: nothing in progress and an empty queue under the hold. -/
theorem test_quiet : (held idle).quiet = true ∧ (held (queueing idle [plainEntry])).quiet = false := by decide

/-- Section 10.5 step 2. -/
theorem test_attn : ({ idle with events := { flags := 0x10, enables := 0x11 } } : State).attn = true ∧ idle.attn = false := by
  decide

/-! ## Witnesses

Each theorem shows states and operands that meet the premises of the statement it names, one group for each clause, at the
bounds of the clause's ranges. -/

/-- An entry of block 100 that carries no append, and a state of the queue full. -/
def hit : QueueEntry := { entry .writeWaiting with append := none }

/-- Eight entries. -/
def fullQueue : List QueueEntry := List.replicate 8 plainEntry

/-- A state whose set is full. -/
def fullSet : State :=
  { opened with
    epoch.reserved := 7
    loggedSet := (List.range 64).map (fun k => { block := 200 + k, state := .logged, sequence := 0 }) }

/-- A state whose default class is OPEN. -/
def openByDefault : State := { idle with regions.live.defaults.cls := .openDefault }

theorem witness_stepRunsFrontCommand :
    ({ idle with pending := [.renew, .status] } : State).pending = .renew :: [.status] ∧ idle.pending = [] ∧
      (let s := inFrame idle { phase := .trailing, bits := 6 }
       s.pending = [] ∧ s.running = true ∧ s.frame.phase ≠ .idle ∧ s.frame.phase ≠ .waitRise ∧ s.frame.bits < 7) ∧
      inReset.running = false ∧ idle.frame.phase = .idle ∧ 7 ≤ (inFrame idle { phase := .code, bits := 7 }).frame.bits := by
  decide

theorem witness_framesDecodeBothWays :
    decodeFrame 0x52 [7] = some (.getMonitor 7) ∧ frameOf (.getMonitor 7) = some (0x52, [7]) ∧
      (Instr.getMonitor 7).wellFormed = true := by decide

theorem witness_rowIsItsFrameByteByByte :
    frameOf (.clearEvents 0x11) = some (0x12, [0, 0, 0x11]) ∧ (Instr.clearEvents 0x11).wellFormed = true ∧
      idle.running = true ∧ idle.lines.csLow = false ∧ idle.frame.phase = .idle := by decide

theorem witness_gatesRefuseWithState :
    (frameOf .renew = some (0x23, []) ∧ State.reset.canDecide 0x23 [] = true ∧ State.reset.control.device ≠ .ready) ∧
      frameOf .commit = some (0x21, []) ∧ (held opened).canDecide 0x21 [] = true ∧
        (held opened).control.device = .ready ∧ (held opened).control.hold = true := by decide

theorem witness_badFramesReachNoBlock :
    (Command.ofCode 0x53 = none ∧ idle.canDecide 0x53 [] = true) ∧
      ((inFrame idle { phase := .count, code := 0x24 }).running = true ∧ Command.code .readSet = 0x24 ∧
        Command.argCount .readSet ≠ 0) ∧
      let s := inFrame idle { phase := .arguments, code := 0x53, count := 2, args := [1] }
      let u := inFrame idle { phase := .arguments, code := 0x20, count := 1 }
      s.frame.args.length + 1 = s.frame.count.toNat ∧ u.frame.args.length + 1 = u.frame.count.toNat ∧
        Command.ofCode 0x20 = some .begin ∧ Command.argCount .begin ≠ u.frame.count.toNat := by decide

theorem witness_decidedFramesHaveTheirReply :
    (State.reset.canDecide 0x20 [] = true ∧ (after .begin State.reset).frame.outcome = some .state) ∧
      idle.canDecide 0x20 [] = true ∧ (after .begin idle).frame.outcome = some .ok ∧
        (after .commit opened).frame.outcome = some .accepted := by decide

theorem witness_frameBytesAdvance :
    (inReset.running = false ∧ (inFrame idle { phase := .waitRise }).frame.phase = .waitRise ∧
        idle.frame.phase = .idle ∧ (inFrame idle { phase := .trailing }).running = true ∧
        (inFrame idle { phase := .trailing }).frame.phase = .trailing) ∧
      (inFrame idle { phase := .arguments, code := 0x12, count := 3, args := [0] }).frame.args.length + 1 < 3 ∧
      (inFrame idle (decidedFrame 0x20 [] .ok [0, 0, 0, 47])).frame.phase = .turnaround ∧
      (inFrame idle { decidedFrame 0x20 [] .ok [0, 0, 0, 47] with phase := .status }).frame.outcome = some .ok ∧
      (inFrame idle { decidedFrame 0x20 [] .ok [0, 0, 0, 47] with phase := .reply, index := 3 }).frame.reply[3]? =
        some 47 := by decide

theorem witness_chipSelectBoundsTheFrame :
    (idle.lines.csLow = false ∧ idle.running = true ∧ idle.frame.phase = .idle) ∧
      (inReset.lines.csLow = false ∧ inReset.running = false) ∧
      (let s := inFrame idle { phase := .trailing }
       s.lines.csLow = true ∧ s.running = true ∧ s.control.restartPending = false) ∧
      (let s : State := { inReset with lines.csLow := true }; s.lines.csLow = true ∧ s.running = false) ∧
      (after .restart idle).lines.csLow = true ∧ (after .restart idle).running = true ∧
        (after .restart idle).control.restartPending = true ∧ (after .restart idle).port.op = none := by decide

theorem witness_statusReportsEveryField : (held State.reset).canDecide 0x10 [] = true := by decide

theorem witness_eventReadsReplyAsTheyStand :
    (State.reset.canDecide 0x11 [] = true ∧ State.reset.canDecide 0x14 [] = true ∧ State.reset.events.fault = none) ∧
      (let s := { after (.hostWrite 100 .both 0) idle with frame := {} }
       s.canDecide 0x14 [] = true ∧
         s.events.fault = some { kind := .write, addr := 100, lanes := .both, reason := .deviceArea, serial := 0 }) ∧
      idle.canDecide 0x12 (bytes24 4194303) = true ∧ (after (.clearEvents 4194303) idle).frame.outcome = some .ok ∧
      (after (.clearEvents 4194304) idle).frame.outcome = some .badArgument := by decide

theorem witness_indexedReadsReplyEveryField :
    (idle.canDecide 0x24 [64] = true ∧ (64 : Byte).toNat ≤ 64 ∧ 64 < (65 : Byte).toNat) ∧
      (idle.canDecide 0x41 [15] = true ∧ (15 : Byte).toNat < 16 ∧ 15 < (16 : Byte).toNat ∧ idle.regions.staged = none ∧
        (after (.setRegion 4 0 0 0 0 0 0) opened).regions.staged ≠ none) ∧
      idle.canDecide 0x52 [7] = true ∧ (7 : Byte).toNat < 8 ∧ 7 < (8 : Byte).toNat := by decide

theorem witness_eventCommandsActOnTheirFields :
    State.reset.canDecide 0x12 (bytes24 4194303) = true ∧ State.reset.canDecide 0x13 (bytes24 4194304) = true ∧
      State.reset.canDecide 0x15 [] = true ∧ State.reset.canDecide 0x7E [] = true ∧
      EventFlag.position (.mon 7) = 21 := by decide

theorem witness_beginFollowsItsChecks :
    idle.canDecide 0x20 [] = true ∧ (held idle).canDecide 0x20 [] = true ∧
      ({ idle with epoch.serial := 4294967295 } : State).canDecide 0x20 [] = true := by decide

theorem witness_commitClosesAnOpenEpoch :
    ∀ e : EpochState, e ∈ [EpochState.opened, .doomed, .idle, .closing, .rollingBack] →
      (inState e).canDecide 0x21 [] = true ∧ (inState e).control.device = .ready ∧ (inState e).control.hold = false ∧
        (inState e).epoch.state = e := by decide

theorem witness_abortCancelsAndRollsBack :
    (let s := queueing opened [entry .writeInProgress, hit, plainEntry]
     s.canDecide 0x22 [] = true ∧ s.control.device = .ready ∧ s.control.hold = false ∧ s.epoch.state = .opened ∧
       s.journal.format = none ∧ s.keptQueue = [entry .writeInProgress, plainEntry]) ∧
      (inState .doomed).canDecide 0x22 [] = true ∧ (inState .rollingBack).canDecide 0x22 [] = true := by decide

theorem witness_renewRestartsTheTimer :
    (held (inState .doomed)).canDecide 0x23 [] = true ∧ (held (inState .doomed)).control.device = .ready ∧
      (held (inState .doomed)).epoch.state = .doomed ∧ idle.canDecide 0x23 [] = true ∧ idle.epoch.state = .idle := by decide

theorem witness_theAgeTimerCountsAndExpires :
    let s : State := { opened with epoch.ageElapsed := 4999 }
    let n : State := { s with regions.live.defaults.agePolicy := .notify }
    let f : State := { s with epoch.ageElapsed := 5000 }
    (s.epoch.state = .opened ∧ s.epoch.ageRunning = true ∧ s.control.hold = false ∧ s.journal.format = none ∧
        s.epoch.ageElapsed + 1 = s.regions.live.defaults.ageLimit ∧ s.regions.live.defaults.agePolicy = .abort) ∧
      (n.regions.live.defaults.agePolicy = .notify ∧ n.epoch.ageElapsed + 1 = n.regions.live.defaults.ageLimit) ∧
      (f.epoch.ageElapsed = f.regions.live.defaults.ageLimit ∧ f.epoch.ageElapsed + 1 ≠ f.regions.live.defaults.ageLimit) ∧
      (opened.epoch.ageElapsed + 1 ≠ opened.regions.live.defaults.ageLimit ∧
        opened.epoch.ageElapsed ≠ opened.regions.live.defaults.ageLimit) ∧
      ((held opened).control.hold = true ∧ idle.epoch.ageRunning = false) ∧
      ¬((s.epoch.state = .opened ∨ s.epoch.state = .doomed) ∧ (held s).epoch.ageRunning = true ∧
        (held s).control.hold = false) := by decide

theorem witness_epochAnchorsBringIdle :
    ∃ (s u : State) (op ou : Operation), s.port.op = some op ∧ op.kind = .commitAnchor .b ∧
      u.port.op = some ou ∧ ou.kind = .abortAnchor .a :=
  ⟨busy (inState .closing) (writeOp (.commitAnchor .b) 136 []), busy (running .abort .close 0) (writeOp (.abortAnchor .a) 128 []),
    _, _, rfl, rfl, rfl, rfl⟩

theorem witness_lookupAnswersInOrder :
    (143 : WordAddr).toNat < 144 ∧
      (idle.journal.live.covers (256 / 16) = true ∧ idle.journal.live.covers (431 / 16) = true) ∧
      (idle.journal.live.covers (1600 / 16) = false ∧ idle.journal.format = none ∧
        idle.regions.live.lawful idle.journal.live = true ∧ idle.regions.live.descs[(0 : Fin 16)].covers (1600 / 16) = true ∧
        idle.regions.live.descs[(0 : Fin 16)].covers (1663 / 16) = true) ∧
      ((∀ i : Fin 16, idle.regions.live.descs[i].covers (144 / 16) = false) ∧ idle.regions.live.defaults.cls = .refuse ∧
        openByDefault.regions.live.defaults.cls = .openDefault) ∧
      (formatting .drain).journal.format = some { old := idle.journal.live, step := .drain } ∧
      ((formatting .drain).journal.staged.getD idle.journal.live).covers (11471 / 16) = true ∧
      (∀ job, (formatting .drain).journal.format = some job → job.old.covers (1600 / 16) = false ∧
        ((formatting .drain).journal.staged.getD (formatting .drain).journal.live).covers (1600 / 16) = false) := by
  refine ⟨by decide, by decide, by decide, by decide, by decide, by decide, fun job h => ?_⟩
  cases h; decide

theorem witness_writesHeldOrRefusedWithTheirReason :
    (State.reset.control.device = .starting ∧ (held idle).control.hold = true ∧ (formatting .drain).draining = true ∧
        (formatting .drain).control.hold = false) ∧
      ((queueing idle fullQueue).admitsWrite 640 .both (.region 1) .openRegion .any .pass ∧ fullQueue.length = 8) ∧
      ((starting .recovering .scan).admitsWrite 1600 .both (.region 0) .journaled .any .pass ∧
        (inState .closing).admitsWrite 1600 .both (.region 0) .journaled .any .pass ∧
        (inState .rollingBack).admitsWrite 1600 .both (.region 0) .journaled .any .pass) := by
  unfold State.admitsWrite; decide

theorem witness_writesRefused :
    (idle.lookup 143 = .deviceArea ∧ idle.lookup 256 = .journalArea ∧ idle.lookup 144 = .unmapped ∧
        idle.draining = false) ∧
      (idle.lookup 1024 = .region (.region 2) .guarded .any .pass ∧
        idle.lookup 1664 = .region (.region 3) .journaled .wordOnly .refuse) ∧
      idle.admitsWrite 1664 .both (.region 3) .journaled .wordOnly .refuse ∧ idle.epoch.state = .idle ∧
      (inState .doomed).admitsWrite 1600 .low (.region 0) .journaled .any .pass := by
  unfold State.admitsWrite; decide

theorem witness_plainWritesArePosted :
    idle.admitsWrite 640 .low (.region 1) .openRegion .any .pass ∧ idle.admitsWrite 640 .neither (.region 1) .openRegion .any .pass ∧
      (idle.admitsWrite 1600 .both (.region 0) .journaled .any .pass ∧ idle.control.device = .ready ∧
        idle.epoch.state = .idle) ∧
      (queueing idle (fullQueue.drop 1)).host.queue.length < 8 := by
  unfold State.admitsWrite; decide

theorem witness_journaledWritesAreCoveredOrDoom :
    (opened.admitsWrite 1600 .neither (.region 0) .journaled .any .pass ∧ opened.host.queue.length < 8 ∧
        opened.control.device = .ready ∧ opened.epoch.state = .opened) ∧
      ((covered .appendWaiting).admitsWrite 1615 .both (.region 0) .journaled .any .pass ∧
        ∃ e ∈ (covered .appendWaiting).loggedSet, e.block = 1615 / 16) ∧
      (opened.epoch.reserved < opened.journal.live.slots.toNat ∧ opened.loggedSet.length < 64) ∧
      (fullSet.admitsWrite 1600 .both (.region 0) .journaled .any .pass ∧ (∀ e ∈ fullSet.loggedSet, e.block ≠ 1600 / 16) ∧
        fullSet.epoch.reserved < fullSet.journal.live.slots.toNat ∧ 64 ≤ fullSet.loggedSet.length) ∧
      ({ opened with epoch.reserved := 8 } : State).admitsWrite 1600 .both (.region 0) .journaled .any .pass ∧
      ({ opened with epoch.reserved := 8 } : State).epoch.reserved = opened.journal.live.slots.toNat := by
  unfold State.admitsWrite; decide

theorem witness_readsAreClassifiedAndAnswered :
    (idle.running = true ∧ idle.lines.presented = none) ∧
      ∃ (s : State) (op : Operation), s.port.op = some op ∧ op.kind = .hostRead ∧ op.writes = [] :=
  ⟨by decide, busy (asking idle .read 900 .performing) (readOp .hostRead 900 1), _, rfl, rfl, rfl⟩

theorem witness_grantsAlternateBetweenTheSides :
    (let s := asking (queueing idle [plainEntry]) .read 900 .grantWait
     s.running = true ∧ s.port.op = none ∧ s.control.hold = false ∧ s.host.phase = .grantWait ∧
       s.lines.presented.isSome = true ∧ s.port.alternation = .device) ∧
      (let s : State := { asking (queueing idle [plainEntry]) .read 900 .grantWait with port.alternation := .host }
       s.port.alternation = .host ∧ s.deviceWaiting = some .queueWrite) ∧
      ((formatting .zeroSecond).host.phase ≠ .grantWait ∧ (formatting .zeroSecond).deviceWaiting = some (.zeroAnchor .a)) ∧
      (idle.host.phase ≠ .grantWait ∧ idle.deviceWaiting = none) ∧
      (let s : State := { watching (formatting .config) (cell .arming 1600 0) with regions.saving := true }
       s.wpWaiting = none ∧ s.regions.saving = true) ∧
      (watching (formatting .config) (cell .arming 1600 0)).journalWaiting = some (.formatConfig .a) ∧
      (let s := watching idle (cell .arming 1600 0)
       s.wpWaiting = none ∧ s.journalWaiting = none ∧ s.monitors[(0 : Fin 8)].state = .arming) := by decide

theorem witness_theHoldGrantsOnlyWhatMustFinish :
    (let s := held (covered .appendWaiting)
     s.running = true ∧ s.port.op = none ∧ s.control.hold = true ∧ s.wpWaiting = some .appendRead) ∧
      (let s := held (running .abort (.restore 100 preimage) 1)
       s.wpWaiting = none ∧ s.rollback.phase = .restore 100 preimage ∧ s.epoch.state ≠ .closing) ∧
      (let s := held (inState .closing)
       s.wpWaiting = none ∧ s.rollback.phase = .idle ∧ s.epoch.state = .closing ∧ s.host.queue = []) ∧
      (held (formatting .config)).wpWaiting = none ∧ (held (formatting .config)).epoch.state ≠ .closing := by decide

theorem witness_theHeadEntryIsRetiredInStages :
    (let s := covered .appendWaiting
     s.running = true ∧ s.port.op = none ∧ s.host.queue = [entry .appendWaiting] ∧ s.host.phase ≠ .grantWait ∧
       (entry .appendWaiting).progress = .appendWaiting) ∧
      (let s : State := { held (covered .appendInFlight) with journal.preimage := some preimage }
       s.control.hold = true ∧ s.journal.preimage = some preimage ∧ s.host.queue = [entry .appendInFlight] ∧
         (entry .appendInFlight).append = some { sequence := 0, spill := false } ∧
         (entry .appendInFlight).tag = some 47) ∧
      (entry .writeWaiting).progress = .writeWaiting := by decide

/-- The premises on a state whose port asks maintenance work alone. -/
def free (s : State) : Bool :=
  s.running && s.port.op.isNone && !s.control.hold && s.host.queue.isEmpty && s.host.phase != .grantWait && !s.regions.saving

theorem witness_maintenanceAsksItsOperation :
    (free (running .abort .read 1) = true ∧ (running .abort .read 1).rollback.phase = .read) ∧
      (free (running .abort .close 0) = true ∧ (running .abort .close 0).rollback.phase = .close) ∧
      (free (inState .closing) = true ∧ (inState .closing).rollback.phase = .idle ∧ (inState .closing).epoch.state = .closing) ∧
      (free (formatting .zeroFirst) = true ∧ free (formatting .zeroSecond) = true ∧ free (formatting .config) = true ∧ free (formatting (.slots 7)) = true ∧
        7 < (formatting (.slots 7)).journal.live.slots.toNat ∧ free (formatting .anchor) = true) ∧
      (free (starting .starting .configRead) = true ∧ free (starting .recovering .anchorRead) = true ∧ free (starting .recovering .scan) = true ∧
        free (starting .recovering .anchorWrite) = true ∧ (starting .recovering .scan).journal.format = none ∧
        (starting .recovering .scan).epoch.state = .idle) ∧
      ({ starting .starting .configRead with control.firstCopy := some [] } : State).control.firstCopy ≠ none ∧
      (free (running .abort (.restore 100 preimage) 1) = true ∧
        (running .abort (.restore 100 preimage) 1).rollback.phase = .restore 100 preimage) ∧
      (let s : State := { idle with monitors := (idle.monitors.set 0 (cell .matching 900 0)).set 7 (cell .arming 1600 0) }
       free s = true ∧ s.rollback.phase = .idle ∧ s.epoch.state ≠ .closing ∧ s.journal.format = none ∧
         s.control.step = .done ∧ s.monitors[(7 : Fin 8)].state = .arming ∧
         ∀ j : Fin 8, j < 7 → s.monitors[j].state ≠ .arming) := by decide

theorem witness_completionsStoreTheirWords :
    let s := busy (storing idle 1600 [1, 2]) { kind := .queueWrite, start := 1601, reads := 0, writes := [7], lanes := .high }
    Memory.wf s.mem ∧ s.port.op.map (fun op => op.writes) = some [7] ∧
      (writeOp .zeroSlot 410 zeroSlotWords).writes.length ≤ 64 := by decide

theorem witness_onlyCompletionsAndResetsStore :
    mayReset .status = false ∧ (after .status (busy idle (readOp .hostRead 900 1))).port.op = some (readOp .hostRead 900 1) ∧
      Instr.status ≠ completionOf .hostRead ∧ Instr.queueWordWriteComplete ≠ completionOf .hostRead := by decide

theorem witness_aResetTearsAtMostOneWord :
    ∃ (s t : State) (op : Operation), s.memoryWf ∧ s.port.op = some op ∧ op.writes.length = 8 ∧ s.running = true ∧
      s.lines.csLow = true ∧ s.control.restartPending = true ∧ exec .rstnAssert s = .next t ∧
      ∃ u, exec .chipSelectRise s = .next u :=
  ⟨busy (after .restart idle) (writeOp (.commitAnchor .b) 136 zeroAnchorWords), _, _, by unfold State.memoryWf; decide, rfl,
    by decide, by decide, by decide, by decide, rfl, _, rfl⟩

theorem witness_quietStaysUntilTheHoldEnds :
    (held idle).quiet = true ∧ (held idle).control.restartPending = false ∧
      (held (asking idle .write 640 (.held .power))).quiet = true ∧ (held (running .abort .paused 1)).quiet = true := by
  decide

theorem witness_queueWritesRetireTheHead :
    let s := busy (queueing opened [entry .writeInProgress, plainEntry]) (entry .writeInProgress).writeOp
    let d := busy (asking (queueing (formatting .drain) [{ plainEntry with progress := .writeInProgress }]) .write 640 (.held .formatDrain))
      plainEntry.writeOp
    s.port.op.map (fun op => op.kind) = some .queueWrite ∧ s.draining = false ∧ d.draining = true ∧
      d.host.queue.tail = [] ∧ d.journal.format = some { old := idle.journal.live, step := .drain } ∧
      d.host.phase = .held .formatDrain ∧
      (let b := asking d .read 640 (.held .blockOrder)
       b.port.op = d.port.op ∧ b.host.queue.tail = [] ∧ b.journal.format = d.journal.format ∧
         b.host.phase = .held .blockOrder ∧ b.lines.presented.map (fun r => r.kind) = some .read) ∧
      (let f := asking d .write 640 (.held .queueFull)
       f.port.op = d.port.op ∧ f.host.queue.tail = [] ∧ f.journal.format = d.journal.format ∧
         f.host.phase = .held .queueFull ∧ f.lines.presented.map (fun r => r.kind) = some .write) ∧
      (held (asking d .write 640 (.held .power))).host.phase = .held .power := by decide

theorem witness_appendsReportTheirRecord :
    let s := covered .appendInFlight
    let r : State := { s with epoch.state := .rollingBack }
    s.host.queue = [entry .appendInFlight] ∧ (entry .appendInFlight).append = some { sequence := 0, spill := false } ∧
      s.epoch.state ≠ .rollingBack ∧ r.epoch.state = .rollingBack ∧ r.rollback.run = .none ∧ r.journal.format = none ∧
      (writeOp .appendWrite 322 []).kind = .appendWrite ∧ (readOp .appendRead 1600 16).writes = [] := by decide

theorem witness_monitorsArmAndDisarm :
    (idle.canDecide 0x50 ([7] ++ bytes24 1048575 ++ bytes16 0 ++ bytes16 0 ++ [1]) = true ∧ idle.control.device = .ready ∧
        idle.control.hold = false ∧ (1048575 : BitVec 24).toNat ≤ 1048575 ∧ 1048575 < (1048576 : BitVec 24).toNat ∧
        7 < (8 : Byte).toNat ∧ (7 : Byte).toNat < 8) ∧
      (watching idle (cell .arming 1600 0)).monitors[(0 : Byte).toNat].state = .arming ∧
      (idle.lookup ((143 : BitVec 24).setWidth 20) = .deviceArea ∧ idle.lookup ((256 : BitVec 24).setWidth 20) = .journalArea ∧
        idle.lookup ((144 : BitVec 24).setWidth 20) = .unmapped) ∧
      (held idle).canDecide 0x51 [7] = true ∧
      (readOp (.arming 0 true) 1600 1).writes = [] ∧ (readOp (.arming 0 false) 1600 1).kind = .arming 0 false := by decide

/-- The head of epoch 47 writes word 1,600, which cell 0 watches. -/
def writing : State :=
  busy
    { queueing (watching (storing opened 1600 [0x0300]) (cell .mismatch 1600 0x0300)) [entry .writeInProgress] with
      epoch := { opened.epoch with reserved := 1, written := 1 }
      loggedSet := [{ block := 100, state := .logged, sequence := 0 }] }
    (entry .writeInProgress).writeOp

theorem witness_shownWritesAreEvaluated :
    ((let s := watching opened (cell .matching 1600 0)
      s.monitors[(0 : Fin 8)].state = .matching ∧ (1600 : WordAddr).toNat ≤ s.monitors[(0 : Fin 8)].addr.toNat ∧
        ([7] : List Word)[s.monitors[(0 : Fin 8)].addr.toNat - (1600 : WordAddr).toNat]? = some 7) ∧
      (watching opened (cell .mismatch 1599 0)).monitors[(0 : Fin 8)].addr.toNat < (1600 : WordAddr).toNat ∧
      (1600 : WordAddr).toNat + 1 ≤ (watching opened (cell .mismatch 1601 0)).monitors[(0 : Fin 8)].addr.toNat ∧
      opened.monitors[(0 : Fin 8)].state = .disarmed) ∧
    Memory.wf writing.mem ∧
      (∀ i : Fin 8, writing.monitors[i].armed = true →
        writing.monitors[i].shadow = readWord writing.mem writing.monitors[i].addr) ∧
      writing.port.op = some (entry .writeInProgress).writeOp ∧
      (entry .writeInProgress).writeOp.start.toNat + (entry .writeInProgress).writeOp.writes.length ≤ 1048576 ∧
      (entry .writeInProgress).writeOp.kind = .queueWrite := by decide

theorem witness_shadowsFollowTheMemory : writing.shadowLaw := by
  refine ⟨show Memory.wf writing.mem by decide, ⟨⟨by decide, by decide, by decide, ?_⟩, ?_, ?_,
    ⟨by decide, by decide, by decide⟩, ⟨fun h => absurd h (by decide), by decide, by decide, by decide, by decide⟩,
    by decide, fun _ => ⟨_, rfl, rfl⟩, ?_⟩, ⟨⟨by decide, by decide, by decide, ?_⟩, by decide, ?_, by decide, by decide⟩,
    ⟨?_, by decide, by decide⟩, ⟨by decide, ?_, by decide, ?_⟩, ⟨?_, by decide, ?_, ?_, by decide, by decide⟩, ?_⟩
  · rintro op ⟨⟩; exact ⟨fun _ h => (nomatch h), fun _ h => (nomatch h), by decide, fun _ h => (nomatch h)⟩
  · unfold State.idleClean; decide
  · unfold State.reservationsBalance; decide
  · rintro op ⟨⟩
    exact ⟨by decide, by decide, by decide, fun h => absurd h (by decide), by decide, fun _ h => (nomatch h), fun _ h => (nomatch h)⟩
  · rintro op ⟨⟩; exact ⟨fun _ h => (nomatch h), fun _ h => (nomatch h), by decide, fun _ h => (nomatch h)⟩
  · rintro op ⟨⟩; decide
  · intro i h; exact ⟨by revert i; decide, by revert i; decide, fun _ h => (nomatch h)⟩
  · exact fun _ h => (nomatch h)
  · exact fun _ h => (nomatch h)
  · intro e h; rw [List.mem_singleton.1 h]; exact ⟨by decide, by decide, fun _ h => (nomatch h)⟩
  · exact fun _ h => (nomatch h)
  · exact fun _ _ h => (nomatch h)
  · rintro op ⟨⟩; exact ⟨_, _, rfl, rfl, rfl, rfl, rfl⟩

theorem witness_runsJudgeAndRestoreTheirRecords :
    (judgeRecord 47 0 idle.journal.live (recordWords false 47 0 100 preimage) = some (100, preimage) ∧
        judgeRecord 47 0 idle.journal.live zeroSlotWords = none) ∧
      ((running .abort .read 1).rollback.run = .abort ∧ 1 ≤ (running .abort .read 1).rollback.remaining) ∧
      ((running .recovery .read 2).rollback.run = .recovery ∧ 2 ≤ (running .recovery .read 2).rollback.remaining) ∧
      (running .recovery .read 1).rollback.remaining = 1 ∧ (readOp .rollbackRead 322 22).writes = [] ∧
      (writeOp .restore 1600 preimage).kind = .restore := by decide

theorem witness_recordsAndAnchorsAreReadBack :
    Memory.wf (storing idle 1600 [7]).mem ∧ preimage.length = 16 ∧ idle.journal.live.covers 65535 = false ∧
      idle.journal.live.covers 9 = false ∧ (7 : Nat) < idle.journal.live.slots.toNat := by decide

theorem witness_configurationsAreReadBackAsWritten :
    Memory.wf idle.mem ∧ table.lawful idle.journal.live = true ∧ idle.journal.live.validForUse = true ∧
      table.lawful {} = true := by decide

theorem witness_setJournalStagesALocation :
    (idle.canDecide 0x30 (bytes16 700 ++ bytes16 12) = true ∧ idle.control.device = .ready ∧ idle.regions.saving = false ∧
        idle.journal.format = none) ∧
      (formatting .drain).journal.format ≠ none ∧
      (4096 < (4097 : Word).toNat ∧ 59904 + (22 * 4096 + 15) / 16 - 1 = 65535 ∧
        65535 < 59905 + (22 * 4096 + 15) / 16 - 1) ∧
      idle.regions.live.descs[(0 : Fin 16)].overlapsArea { base := 98, slots := 2 } = true ∧
      (∀ i : Fin 16, idle.regions.live.descs[i].overlapsArea { base := 9, slots := 1 } = false) ∧
      (∀ i : Fin 8, idle.monitors[i].state = .disarmed) ∧
      Location.covers { base := 9, slots := 1 } ((watching idle (cell .matching 144 0)).monitors[(0 : Fin 8)].addr.toNat / 16) =
        true := by decide

theorem witness_formatFollowsItsChecks :
    (idle.canDecide 0x31 [] = true ∧ idle.control.device = .ready ∧ idle.control.hold = false ∧ idle.epoch.state = .idle ∧
        idle.regions.saving = false ∧ idle.journal.format = none ∧ idle.journal.live.slots ≠ 0 ∧
        idle.regions.generation ≠ 4294967295 ∧ idle.host.queue = [] ∧ idle.host.phase ≠ .held .formatDrain) ∧
      (queueing idle [plainEntry]).host.queue ≠ [] ∧ opened.epoch.state ≠ .idle ∧
      (let s : State := { idle with journal := {} }; s.journal.staged = none ∧ s.journal.live.slots = 0) ∧
      ({ idle with regions.generation := 4294967295 } : State).regions.generation = 4294967295 ∧
      (asking idle .read 900 .grantWait).lines.presented =
        some { kind := .read, addr := 900, lanes := .both, data := 7 } := by decide

/-- Step 2 of a FORMAT discards the arming read of a cell on the location it makes live, and keeps that of another (R57,
R154). -/
theorem witness_formatDiscardsArmingReads :
    (let s := busy (watching { idle with journal.staged := some { base := 700, slots := 12 } } (cell .arming 11215 0))
       (readOp (.arming 0 true) 11215 1)
     (after .format s).monitors[(0 : Fin 8)].state = .disarmed ∧
       (after .format s).port.op = some (readOp (.arming 0 false) 11215 1)) ∧
      (let s := busy (watching { idle with journal.staged := some { base := 700, slots := 12 } } (cell .arming 11472 0))
         (readOp (.arming 0 true) 11472 1)
       (after .format s).monitors[(0 : Fin 8)].state = .arming ∧
         (after .format s).port.op = some (readOp (.arming 0 true) 11472 1)) := by decide

theorem witness_formatRunsThroughItsSteps :
    (∀ step ∈ [FormatStep.zeroFirst, .zeroSecond, .config, .slots 6, .slots 7, .anchor],
      (busy (formatting step) (writeOp .zeroSlot 410 zeroSlotWords)).journal.format =
        some { old := idle.journal.live, step := step }) ∧
      (writeOp (.zeroAnchor .a) 128 zeroAnchorWords).kind = .zeroAnchor .a ∧
      (writeOp (.formatConfig .a) 0 []).kind = .formatConfig .a ∧ (writeOp .formatAnchor 128 []).kind = .formatAnchor := by
  decide

theorem witness_setRegionEditsOneDescriptor :
    let d : Descriptor := { valid := true, first := 9, last := 9, cls := .guarded, width := .wordOnly, policy := .refuse }
    (idle.canDecide 0x40 ([15, 1] ++ bytes16 9 ++ bytes16 9 ++ [2, 1, 1]) = true ∧ idle.control.device = .ready ∧
        idle.regions.saving = false ∧ idle.journal.format = none) ∧
      (d.cls.code = 2 ∧ d.width.code = 1 ∧ d.policy.code = 1 ∧ d.overlapsArea idle.journal.live = false ∧
        idle.journal.staged = none ∧
        ∀ j : Fin 16, j.val ≠ (15 : Byte).toNat → d.overlaps idle.regions.live.descs[j] = false) ∧
      (15 < (16 : Byte).toNat ∧ 1 < (2 : Byte).toNat ∧ 2 < (3 : Byte).toNat) ∧
      (let c : Descriptor := { valid := true, first := 26, last := 40 }
       c.overlapsArea idle.journal.live = true ∧ c.overlaps idle.regions.live.descs[(1 : Fin 16)] = true) ∧
      opened.epoch.state ≠ .idle ∧ opened.regions.staged.getD opened.regions.live = table := by decide

theorem witness_setDefaultsReplacesTheDefaults :
    (idle.canDecide 0x42 ([1] ++ bytes16 65535 ++ [1]) = true ∧ idle.control.device = .ready ∧ idle.regions.saving = false ∧
        idle.journal.format = none) ∧
      DefaultClass.refuse.code = 1 ∧ AgePolicy.abort.code = 1 ∧ 1 < (2 : Byte).toNat ∧ opened.epoch.state ≠ .idle := by
  decide

theorem witness_saveConfigStoresTheLiveValues :
    (idle.canDecide 0x43 [] = true ∧ idle.control.device = .ready ∧ idle.control.hold = false) ∧
      (busy { idle with regions.saving := true } (writeOp (.saveConfig .a) 0 [])).port.op =
        some (writeOp (.saveConfig .a) 0 []) ∧
      (let s : State := { idle with regions.saving := true }
       s.running = true ∧ s.port.op = none ∧ s.control.hold = false ∧ s.host.queue = [] ∧ s.host.phase ≠ .grantWait ∧
         s.regions.inForce = some .b) ∧
      ({ idle with regions.saving := true, regions.inForce := some .a } : State).regions.inForce = some .a ∧
      (let s : State := { asking idle .read 900 .grantWait with regions.saving := true, port.alternation := .host }
       s.host.phase = .grantWait ∧ s.port.alternation = .host ∧ s.regions.saving = true) := by decide

set_option maxRecDepth 4000 in
theorem witness_startUpLoadsTheConfiguration :
    let c : StoredConfig := { generation := 6, location := idle.journal.live, table := table }
    (readOp (.configRead .a) 0 64).writes = [] ∧ judgeConfig (configWords c) = some c ∧
      judgeConfig (configWords { c with generation := 5 }) = some { c with generation := 5 } ∧
      judgeConfig (configWords { c with location := {} }) = some { c with location := {} } ∧
      judgeConfig (List.replicate 64 0) = none ∧ c.location.slots ≠ 0 := by decide

theorem witness_startUpSelectsTheAnchor :
    (readOp (.anchorRead .a) 128 8).writes = [] ∧
      judgeAnchor idle.journal.live (anchorWords 46 0 idle.journal.live) = some { next := 46, tail := 0 } ∧
      judgeAnchor idle.journal.live (anchorWords 47 7 idle.journal.live) = some { next := 47, tail := 7 } ∧
      judgeAnchor idle.journal.live zeroAnchorWords = none ∧
      ({ starting .recovering .anchorRead with control.firstCopy := some zeroAnchorWords } : State).control.firstCopy =
        some zeroAnchorWords := by decide

theorem witness_startUpScansForTheUnfinishedEpoch :
    let s : State := { starting .recovering .scan with control.scanIndex := 7 }
    (readOp .scanRead 322 22).writes = [] ∧ s.journal.anchorSerial ≠ 4294967295 ∧
      judgeRecord s.journal.anchorSerial s.control.scanIndex s.journal.live (recordWords true 47 7 100 preimage) ≠ none ∧
      s.journal.live.slots.toNat ≤ s.control.scanIndex + 1 ∧
      (6 : Nat) + 1 < s.journal.live.slots.toNat ∧
      judgeRecord 47 0 s.journal.live zeroSlotWords = none ∧ (starting .recovering .scan).control.scanIndex = 0 := by decide

theorem witness_theRecoveryAnchorEndsRecovery :
    ∃ (s : State) (op : Operation), s.port.op = some op ∧ op.kind = .recoveryAnchor .b :=
  ⟨busy (starting .recovering .anchorWrite) (writeOp (.recoveryAnchor .b) 136 []), _, rfl, rfl⟩

theorem witness_theHoldFollowsThePowerWarning :
    (idle.running = true ∧ idle.lines.pfw = false) ∧
      (let s := busy (running .abort .read 1) (readOp .rollbackRead 322 22)
       s.rollback.phase = .read ∧ s.port.op = some (readOp .rollbackRead 322 22)) ∧
      (running .abort .close 0).rollback.phase = .close ∧
      (held (running .abort .paused 0)).running = true ∧ (held (running .abort .paused 0)).lines.pfw = true ∧
      (let s := held (watching (running .abort .paused 1) (cell .arming 1600 0))
       let u : State :=
         { s with
           lines.pfw := false, control.hold := false, events.flags := s.events.flags ||| EventFlag.holdLeft.mask }
       let w := u.classifiedIf false
       s.running = true ∧ s.lines.pfw = true ∧ (s.host.phase == .held .power) = false ∧ s.rollback.phase = .paused ∧
         s.port.op = none ∧ w.wpWaiting = none ∧ s.regions.saving = false ∧ w.journalWaiting = none ∧
         w.host.phase ≠ .grantWait ∧ s.monitors[(0 : Fin 8)].state = .arming ∧ (∀ j : Fin 8, ¬j < 0) ∧
         ((asking u .read 640 (.held .power)).classifiedIf true).host.phase = .grantWait ∧ s.port.alternation = .device) ∧
      (let s := asking (held { running .abort .paused 1 with port.alternation := .host }) .read 640 (.held .power)
       let w := ({ s with lines.pfw := false, control.hold := false } : State).classifiedIf true
       s.rollback.phase = .paused ∧ w.journalWaiting = none ∧ w.wpWaiting = none ∧ s.monitors = Vector.replicate 8 {} ∧
         w.host.phase = .grantWait ∧ s.port.alternation = .host ∧ w.lines.presented ≠ none) := by decide

set_option maxRecDepth 8000 in
/-- What bounds the cut of a configuration write (R96, R98): words 0 to 56 of the copy decide its check, and a cut after them
would leave a valid copy; other writes may be cut anywhere (R47, R51). -/
theorem witness_tornConfigurationsFail :
    let c : StoredConfig := { generation := 7, location := {}, table := {} }
    idle.mayTear (writeOp (.saveConfig .a) 0 (configWords c)) 0 57 = false ∧
      idle.mayTear (writeOp (.saveConfig .a) 0 (configWords c)) 0 56 = true ∧
      idle.mayTear (writeOp (.commitAnchor .b) 136 (anchorWords 48 3 idle.journal.live)) 0xFFFF 7 = true ∧
      idle.mayTear (writeOp .formatAnchor 128 (anchorWords 1 0 idle.journal.live)) 0xFFFF 7 = false := by decide

/-- R132, R58, R62: the first zero anchor write may end at its first word with the old value there, so that the copy not in
force stays as it was; the second, with none in force, leaves no valid copy. -/
theorem test_zeroAnchorMayEndAtItsFirstWord :
    let s := storing (formatting .zeroFirst) 136 (anchorWords 46 0 idle.journal.live)
    let u : State := { storing (formatting .zeroSecond) 128 (anchorWords 47 3 idle.journal.live) with journal.inForce := none }
    s.mayTear (writeOp (.zeroAnchor .b) 136 zeroAnchorWords) 0 0 = true ∧
      s.mayTear (writeOp (.zeroAnchor .b) 136 zeroAnchorWords) 0 7 = true ∧
      u.mayTear (writeOp (.zeroAnchor .a) 128 zeroAnchorWords) 0 0 = false ∧
      u.mayTear (writeOp (.zeroAnchor .a) 128 zeroAnchorWords) 0 7 = true := by decide

theorem witness_resetsBeginAndEnd :
    idle.running = true ∧ idle.port.op = none ∧ (readOp .hostRead 900 1).writes = [] ∧
      (busy idle (writeOp (.saveConfig .a) 0 [])).port.op = some (writeOp (.saveConfig .a) 0 []) ∧
      (let s : State := { State.reset with lines.supply := .rising }; s.running = false ∧ s.lines.rstn = false ∧
        s.lines.supply = .rising) ∧
      (let s : State := { inReset with lines.supply := .rising }; s.lines.supply = .rising ∧ s.lines.rstn = true ∧
        s.lines.supply ≠ .inRange) ∧
      inReset.lines.rstn = true ∧ inReset.lines.supply = .inRange ∧ inReset.lines.pfw = false ∧
      (held inReset).lines.pfw = true := by decide

theorem witness_eventsThatCannotAriseChangeNothing :
    (inFrame idle {}).lines.csLow = true ∧ idle.lines.csLow = false ∧ (held idle).lines.pfw = true ∧
      idle.lines.pfw = false ∧ inReset.lines.rstn = true ∧ idle.lines.rstn = false ∧ idle.lines.supply ≠ .rising ∧
      inReset.running = false ∧ (busy idle (readOp .hostRead 900 1)).port.op ≠ none ∧
      completionOf (.configRead .a) ≠ completionOf .hostRead ∧
      (asking idle .read 900 .grantWait).lines.presented ≠ none ∧ inReset.lines.presented = none := by decide

theorem witness_stepsKeepTheMemoryAndCapacities :
    Memory.wf (storing idle 1600 [7, 0, 9]).mem ∧ (queueing fullSet fullQueue).bounded := by
  unfold State.bounded; decide

theorem witness_stepsKeepTheOrderOfWork : (covered .appendWaiting).workLaw := by
  refine ⟨⟨by decide, by decide, by decide, fun _ h => (nomatch h)⟩, ?_, ?_, ⟨by decide, by decide, by decide⟩,
    ⟨fun h => absurd h (by decide), by decide, by decide, by decide, by decide⟩, by decide, fun h => absurd h (by decide),
    fun _ h => (nomatch h)⟩
  · unfold State.idleClean; decide
  · unfold State.reservationsBalance; decide

theorem witness_stepsKeepTheWriteAheadRule : (covered .appendWaiting).writeAheadLaw := by
  refine ⟨witness_stepsKeepTheOrderOfWork, fun ahead e behind h ht ha => ?_, by decide⟩
  have : e ∈ (covered .appendWaiting).host.queue := by rw [h]; simp
  rw [List.mem_singleton.1 this] at ha
  exact absurd ha (by decide)

theorem witness_stepsKeepTheRegionLaw : ({ idle with journal.staged := some { base := 700, slots := 12 } } : State).regionLaw := by
  refine ⟨by decide, fun l h => ?_, fun t h => (nomatch h), by decide, by decide, fun _ _ h => (nomatch h)⟩
  cases h; decide

theorem witness_stepsKeepTheSerialOfTheAnchor : idle.serialLaw :=
  ⟨⟨by decide, by decide, by decide, fun _ h => (nomatch h)⟩, by decide, fun _ h => (nomatch h), by decide, by decide⟩

theorem witness_stepsKeepTheLinesAndTheReset :
    (held idle).linesLaw ∧ (held idle).heldInReset ∧ inReset.linesLaw ∧ inReset.heldInReset := by
  unfold State.linesLaw State.heldInReset; decide

end Sys2Proof.Tests
end

section
/-! The commands BEGIN and RENEW of the Epoch Controller (R3, R17). Their gates and own checks are said once each; the
obligations then settle the decision in the frame record. -/

namespace Sys2Proof.Proofs
open Sys2Proof.Machine Sys2Proof.Laws

variable {s : State} {c : Command} {own : State → Decision}

/-! ## The gates -/

/-- A command that both gates name is refused outside READY and under the hold (R147, R175). -/
theorem gated_refused (d : startGate c = false) (h : holdGate c = false)
    (shut : s.control.device ≠ .ready ∨ s.control.hold = true) : s.gated c own = refusedWith .state s := by
  rcases gated_cases (s := s) (c := c) (own := own) with ⟨refused, _⟩ | ⟨_, device, hold⟩
  · exact refused
  · exact absurd shut (by simpa [d, h] using And.intro device hold)

/-! ## BEGIN, check by check (R3) -/

/-- A BEGIN at its decision point settles what the gates and R3 decide. -/
theorem exec_begin (h : s.canDecide 0x20 [] = true) :
    exec .begin s = .next ((s.gated .begin takeBegin).settle 0x20 []) :=
  congrArg Host.Outcome.next (command_eq (c := .begin) h)

/-- The epoch record a taken BEGIN leaves: the serial kept, every counter 0, the timer running if it is in use. -/
def openedEpoch (s : State) : Epoch :=
  { state := .opened, serial := s.epoch.serial, reserved := 0, written := 0, spills := 0, ageElapsed := 0
    ageRunning := decide (1 ≤ s.regions.live.defaults.ageLimit.toNat) }

/-! The first check that fails gives the status; a BEGIN that passes all four is taken. -/

theorem takeBegin_of_not_idle (e : s.epoch.state ≠ .idle) : takeBegin s = refusedWith .state s := by
  simp [takeBegin, e]

theorem takeBegin_of_format (e : s.epoch.state = .idle) (f : s.journal.format ≠ none) :
    takeBegin s = refusedWith .busy s := by
  simp [takeBegin, e, Option.isSome_iff_ne_none, f]

theorem takeBegin_of_not_formatted (e : s.epoch.state = .idle) (f : s.journal.format = none)
    (j : s.journal.status ≠ .formatted) : takeBegin s = refusedWith .notFormatted s := by
  simp [takeBegin, e, f, j]

theorem takeBegin_of_exhausted (e : s.epoch.state = .idle) (f : s.journal.format = none)
    (j : s.journal.status = .formatted) (x : s.epoch.serial = Config.maxSerial) :
    takeBegin s = refusedWith .exhausted s := by
  simp [takeBegin, e, f, j, x]

theorem takeBegin_of_free (e : s.epoch.state = .idle) (f : s.journal.format = none)
    (j : s.journal.status = .formatted) (x : s.epoch.serial ≠ Config.maxSerial) :
    takeBegin s = { status := .ok, reply := bytes32 s.epoch.serial, after := { s with epoch := openedEpoch s } } := by
  simp [takeBegin, e, f, j, x, openedEpoch, timed_eq]

/-! ## RENEW, by epoch state (R17) -/

/-- A RENEW at its decision point in READY settles what R17 decides: the hold gate does not name it. -/
theorem exec_renew (h : s.canDecide 0x23 [] = true) (d : s.control.device = .ready) :
    exec .renew s = .next ((takeRenew s).settle 0x23 []) := by
  have own : s.gated .renew takeRenew = takeRenew s := gated_held d rfl
  rw [← own]
  exact congrArg Host.Outcome.next (command_eq (c := .renew) h)

theorem takeRenew_of_running (e : s.epoch.state = .opened ∨ s.epoch.state = .doomed) :
    takeRenew s =
      { status := .ok, reply := []
        after :=
          { s with
            epoch :=
              { s.epoch with
                ageElapsed := 0, ageRunning := decide (1 ≤ s.regions.live.defaults.ageLimit.toNat) } } } := by
  rcases e with e | e <;> simp [takeRenew, e, timed_eq]

theorem takeRenew_of_not_running
    (e : s.epoch.state = .idle ∨ s.epoch.state = .closing ∨ s.epoch.state = .rollingBack) :
    takeRenew s = refusedWith .state s := by
  rcases e with e | e | e <;> simp [takeRenew, e]

end Sys2Proof.Proofs

namespace Sys2Proof.Proofs
open Sys2Proof.Machine Sys2Proof.Laws

/-- Settles O14: the gates first, then one case for each check of R3 in its order. -/
theorem beginFollowsItsChecks : Obligations.BeginFollowsItsChecks := by
  intro s h
  rw [exec_begin h]
  congr 1
  split
  case isTrue shut => rw [gated_refused rfl rfl shut, settle_refused]
  case isFalse pass =>
    obtain ⟨ready, free⟩ : s.control.device = .ready ∧ s.control.hold = false := by simpa using pass
    rw [gated_ready ready free]
    split
    case isTrue busy => rw [takeBegin_of_not_idle busy, settle_refused]
    case isFalse idle =>
      have e := not_not.1 idle
      split
      case isTrue running => rw [takeBegin_of_format e running, settle_refused]
      case isFalse none =>
        have f := not_not.1 none
        split
        case isTrue unformatted => rw [takeBegin_of_not_formatted e f unformatted, settle_refused]
        case isFalse formatted =>
          have j := not_not.1 formatted
          split
          case isTrue last => rw [takeBegin_of_exhausted e f j last, settle_refused]
          case isFalse more => rw [takeBegin_of_free e f j more, settle_eq, openedEpoch]

/-- Settles O17: in READY the hold flag plays no part, and the epoch state alone decides. -/
theorem renewRestartsTheTimer : Obligations.RenewRestartsTheTimer := by
  intro s h ready
  rw [exec_renew h ready]
  refine ⟨fun running => ?_, fun other => ?_⟩
  · rw [takeRenew_of_running running, settle_eq]
  · rw [takeRenew_of_not_running other, settle_refused]

end Sys2Proof.Proofs
end

section
/-! The commands of the Event Unit (R163 to R165, R168, R169). Neither gate names one of them, so their rows settle what
their own rules decide; the replies and the statuses are then said once each. -/

namespace Sys2Proof.Proofs
open Sys2Proof.Machine Sys2Proof.Laws

variable {s t : State} {c : Command} {args : List Byte} {own : State → Decision} {mask : BitVec 24}

/-! ## The rows: no gate stands before the owner's rule -/

/-- A command that neither gate names settles what its own rule decides, whatever the device state and the hold flag
(R147, R175). -/
theorem command_ungated (d : startGate c = true) (h : holdGate c = true) (q : s.canDecide c.code args = true) :
    s.command c args own = (own s).settle c.code args := by
  rw [command_eq q, gated_always d h]

theorem exec_readEvents (q : s.canDecide 0x11 [] = true) :
    exec .readEvents s = .next ((takeReadEvents s).settle 0x11 []) :=
  congrArg Host.Outcome.next (command_ungated (c := .readEvents) rfl rfl q)

theorem exec_clearEvents (q : s.canDecide 0x12 (bytes24 mask) = true) :
    exec (.clearEvents mask) s = .next ((takeClearEvents mask s).settle 0x12 (bytes24 mask)) :=
  congrArg Host.Outcome.next (command_ungated (c := .clearEvents) rfl rfl q)

theorem exec_setEventEnables (q : s.canDecide 0x13 (bytes24 mask) = true) :
    exec (.setEventEnables mask) s = .next ((takeSetEventEnables mask s).settle 0x13 (bytes24 mask)) :=
  congrArg Host.Outcome.next (command_ungated (c := .setEventEnables) rfl rfl q)

theorem exec_readFault (q : s.canDecide 0x14 [] = true) :
    exec .readFault s = .next ((takeReadFault s).settle 0x14 []) :=
  congrArg Host.Outcome.next (command_ungated (c := .readFault) rfl rfl q)

theorem exec_clearFault (q : s.canDecide 0x15 [] = true) :
    exec .clearFault s = .next ((takeClearFault s).settle 0x15 []) :=
  congrArg Host.Outcome.next (command_ungated (c := .clearFault) rfl rfl q)

/-! ## The replies of the two reads -/

/-- An empty record reads as zeros before the refusal count (R167). -/
theorem faultReply_of_none (e : s.events.fault = none) :
    faultReply s = [0, 0, 0, 0, 0, 0, 0, 0, 0, 0, 0, BitVec.ofNat 8 s.events.refusals] := by
  have zeros : faultBytes none = [0, 0, 0, 0, 0, 0, 0, 0, 0, 0, 0] := by decide
  rw [faultReply, e, zeros]
  rfl

/-- A taken record reads field by field in the order of chapter 12.3. -/
theorem faultReply_of_some {f : FaultRecord} (e : s.events.fault = some f) :
    faultReply s =
      [1, f.kind.code] ++ bytes24 (f.addr.setWidth 24) ++ [lanesCode f.lanes, f.reason.code] ++ bytes32 f.serial ++
        [BitVec.ofNat 8 s.events.refusals] := by
  rw [faultReply, e]
  rfl

/-! ## The statuses of the three that write -/

/-- A row that settles a decision leaves its status as the outcome of the frame. -/
theorem outcome_of_settled {i : Instr} {d : Decision} {code : Byte} (settled : exec i s = .next (d.settle code args))
    (next : exec i s = .next t) : t.frame.outcome = some d.status := by
  obtain rfl : d.settle code args = t := Host.Outcome.next.inj (settled.symm.trans next)
  rw [settle_eq, decided_outcome]

/-- A rule that takes a mask in range with OK refuses one with a 1 in position 22 or 23 with BAD_ARGUMENT (R163,
R164). -/
theorem status_of_masked {d : Decision} (ok : d.status = .ok) :
    (if maskInRange mask then d else refusedWith .badArgument s).status =
      if 4194304 ≤ mask.toNat then .badArgument else .ok := by
  by_cases inRange : mask.toNat < 4194304
  · rw [if_pos ((maskInRange_iff mask).2 inRange), if_neg (not_le.2 inRange), ok]
  · rw [if_neg (mt (maskInRange_iff mask).1 inRange), if_pos (not_lt.1 inRange), refusedWith]

theorem takeClearEvents_status :
    (takeClearEvents mask s).status = if 4194304 ≤ mask.toNat then .badArgument else .ok :=
  status_of_masked rfl

theorem takeSetEventEnables_status :
    (takeSetEventEnables mask s).status = if 4194304 ≤ mask.toNat then .badArgument else .ok :=
  status_of_masked rfl

theorem takeClearFault_status : (takeClearFault s).status = .ok := rfl

end Sys2Proof.Proofs

namespace Sys2Proof.Proofs
open Sys2Proof.Machine Sys2Proof.Laws

/-- Settles O11: the reads settle their own reply over the state as it stands, and the status of each write follows from
its mask alone, never from a gate. -/
theorem eventReadsReplyAsTheyStand : Obligations.EventReadsReplyAsTheyStand := by
  refine ⟨fun s q => ?readEvents, fun s q e => ?emptyRecord, fun s f q e => ?takenRecord, ?writes⟩
  case readEvents =>
    rw [exec_readEvents q, settle_eq]
    rfl
  case emptyRecord =>
    rw [exec_readFault q, settle_eq, ← faultReply_of_none e]
    rfl
  case takenRecord =>
    rw [exec_readFault q, settle_eq, ← faultReply_of_some e]
    rfl
  case writes =>
    rintro s t i mask (rfl | rfl | rfl) q next
    · rw [outcome_of_settled (exec_clearEvents q) next, takeClearEvents_status]
      simp [apply_ite]
    · rw [outcome_of_settled (exec_setEventEnables q) next, takeSetEventEnables_status]
      simp [apply_ite]
    · rw [outcome_of_settled (exec_clearFault q) next, takeClearFault_status]
      simp

end Sys2Proof.Proofs
end

section
-- One declaration at a time: each thread that waits for another reserves memory of the check.
set_option Elab.async false
/-! Frames and the commands they carry: which row is which command of the port, that a frame decodes both ways, and that
every management row settles what the gates and its owner's rule decide (R171, R172, chapter 12.2). -/

namespace Sys2Proof.Proofs
open Sys2Proof.Machine Sys2Proof.Laws

/-! ## Fields of several bytes -/

theorem bytes16_word16 (hi lo : Byte) : bytes16 (word16 hi lo) = [hi, lo] := by
  rw [bytes16, word16, high_of_bytes, low_of_bytes]

/-- The bits of a 24-bit field, from its least significant byte upward. -/
theorem getLsbD_word24 (hi mid lo : Byte) (k : Nat) :
    (word24 hi mid lo).getLsbD k =
      if k < 8 then lo.getLsbD k else if k - 8 < 8 then mid.getLsbD (k - 8) else hi.getLsbD (k - 8 - 8) := by
  have whole : (word24 hi mid lo).getLsbD k = ((hi ++ mid) ++ lo : BitVec (8 + 8 + 8)).getLsbD k := rfl
  rw [whole, BitVec.getLsbD_append, BitVec.getLsbD_append]

theorem bytes24_word24 (hi mid lo : Byte) : bytes24 (word24 hi mid lo) = [hi, mid, lo] := by
  have byte : ∀ (b : Byte) (k : Nat), (∀ j, j < 8 → (word24 hi mid lo).getLsbD (k + j) = b.getLsbD j) →
      (word24 hi mid lo).extractLsb' k 8 = b := fun b k h =>
    BitVec.eq_of_getLsbD_eq fun j lt => by simp [lt, h j lt]
  rw [bytes24, byte hi 16, byte mid 8, byte lo 0]
  · intro j lt; rw [getLsbD_word24, if_pos (by omega), Nat.zero_add]
  · intro j lt; rw [getLsbD_word24, if_neg (by omega), if_pos (by omega), Nat.add_sub_cancel_left]
  · intro j lt
    rw [getLsbD_word24, if_neg (by omega), if_neg (by omega), Nat.sub_sub, Nat.add_sub_cancel_left]

/-! ## The command of a row -/

/-- The command of the port that a row is; none for the rows that are events, and for BAD_COMMAND_FRAME. -/
def commandOf : Instr → Option Command
  | .status => some .status
  | .begin => some .begin
  | .commit => some .commit
  | .abort => some .abort
  | .renew => some .renew
  | .readSet _ => some .readSet
  | .setJournal _ _ => some .setJournal
  | .format => some .format
  | .setRegion _ _ _ _ _ _ _ => some .setRegion
  | .getRegion _ => some .getRegion
  | .setDefaults _ _ _ => some .setDefaults
  | .saveConfig => some .saveConfig
  | .armMonitor _ _ _ _ _ => some .armMonitor
  | .disarmMonitor _ => some .disarmMonitor
  | .getMonitor _ => some .getMonitor
  | .readEvents => some .readEvents
  | .clearEvents _ => some .clearEvents
  | .setEventEnables _ => some .setEventEnables
  | .readFault => some .readFault
  | .clearFault => some .clearFault
  | .restart => some .restart
  | _ => none

variable {i : Instr} {c : Command} {code : Byte} {args : List Byte} {s t : State}

/-- A row that is a command carries its code, and settles what the gates and the owner's rule decide. -/
theorem exec_of_commandOf (h : commandOf i = some c) :
    ∃ args, frameOf i = some (c.code, args) ∧ ∀ s, exec i s = .next (s.command c args (ownerRule i)) := by
  cases i <;> cases h <;> exact ⟨_, rfl, fun _ => rfl⟩

/-- A row with a frame is a command, or a BAD_COMMAND_FRAME. -/
theorem command_or_bad (h : frameOf i = some (code, args)) :
    (∃ c, commandOf i = some c ∧ code = c.code) ∨ i = .badCommandFrame code args := by
  cases i <;> cases h <;> first | exact .inl ⟨_, rfl, rfl⟩ | exact .inr rfl

/-- A management row settles what the gates and its owner's rule decide (R172). -/
theorem exec_of_frameOf (h : frameOf i = some (c.code, args)) (m : commandOf i = some c) (s : State) :
    exec i s = .next (s.command c args (ownerRule i)) := by
  obtain ⟨args', f, e⟩ := exec_of_commandOf m
  obtain rfl : args' = args := by simpa using f.symm.trans h
  exact e s

/-! ## Decoding -/

/-- Argument bytes that decode are those of the frame of the row they decode to, which is a row of that command. -/
theorem frameOf_of_decodeArgs (h : decodeArgs c args = some i) :
    frameOf i = some (c.code, args) ∧ commandOf i = some c := by
  cases c <;> simp only [decodeArgs] at h
  case clearEvents | setEventEnables =>
    unfold decode3 at h
    split at h <;> cases h
    exact ⟨by simp [frameOf, bytes24_word24], rfl⟩
  case readSet | getRegion | disarmMonitor | getMonitor =>
    unfold decode1 at h
    split at h <;> cases h
    exact ⟨rfl, rfl⟩
  case setJournal =>
    unfold decodeSetJournal at h
    split at h <;> cases h
    exact ⟨by simp [frameOf, bytes16_word16], rfl⟩
  case setDefaults =>
    unfold decodeSetDefaults at h
    split at h <;> cases h
    exact ⟨by simp [frameOf, bytes16_word16], rfl⟩
  case setRegion =>
    unfold decodeSetRegion at h
    split at h <;> cases h
    exact ⟨by simp [frameOf, bytes16_word16], rfl⟩
  case armMonitor =>
    unfold decodeArmMonitor at h
    split at h <;> cases h
    exact ⟨by simp [frameOf, bytes16_word16, bytes24_word24], rfl⟩
  all_goals
    unfold decode0 at h
    split at h <;> cases h
    exact ⟨rfl, rfl⟩

theorem wellFormed_of_commandOf (h : commandOf i = some c) : i.wellFormed = true := by
  cases i <;> first | rfl | cases h

/-- Every row's frame decodes to it (chapter 12.2). -/
theorem frameRoundTrip : ∀ i, FrameRoundTrip.Statement i
  | .status => FrameRoundTrip.status
  | .begin => FrameRoundTrip.begin
  | .commit => FrameRoundTrip.commit
  | .abort => FrameRoundTrip.abort
  | .renew => FrameRoundTrip.renew
  | .readSet start => FrameRoundTrip.readSet start
  | .setJournal base slots => FrameRoundTrip.setJournal base slots
  | .format => FrameRoundTrip.format
  | .setRegion index valid first last cls width policy =>
    FrameRoundTrip.setRegion index valid first last cls width policy
  | .getRegion index => FrameRoundTrip.getRegion index
  | .setDefaults cls ageLimit policy => FrameRoundTrip.setDefaults cls ageLimit policy
  | .saveConfig => FrameRoundTrip.saveConfig
  | .armMonitor index addr mask compare trigger => FrameRoundTrip.armMonitor index addr mask compare trigger
  | .disarmMonitor index => FrameRoundTrip.disarmMonitor index
  | .getMonitor index => FrameRoundTrip.getMonitor index
  | .readEvents => FrameRoundTrip.readEvents
  | .clearEvents mask => FrameRoundTrip.clearEvents mask
  | .setEventEnables mask => FrameRoundTrip.setEventEnables mask
  | .readFault => FrameRoundTrip.readFault
  | .clearFault => FrameRoundTrip.clearFault
  | .restart => FrameRoundTrip.restart
  | .badCommandFrame code args => FrameRoundTrip.badCommandFrame code args
  | .chipSelectFall => FrameRoundTrip.chipSelectFall
  | .chipSelectRise => FrameRoundTrip.chipSelectRise
  | .hostWrite addr lanes data => FrameRoundTrip.hostWrite addr lanes data
  | .hostRead addr lanes => FrameRoundTrip.hostRead addr lanes
  | .arbiterGrant => FrameRoundTrip.arbiterGrant
  | .hostReadComplete => FrameRoundTrip.hostReadComplete
  | .queueWordWriteComplete => FrameRoundTrip.queueWordWriteComplete
  | .appendBlockReadComplete => FrameRoundTrip.appendBlockReadComplete
  | .appendSlotWriteComplete => FrameRoundTrip.appendSlotWriteComplete
  | .rollbackSlotReadComplete => FrameRoundTrip.rollbackSlotReadComplete
  | .restoreWriteComplete => FrameRoundTrip.restoreWriteComplete
  | .commitAnchorWriteComplete => FrameRoundTrip.commitAnchorWriteComplete
  | .abortAnchorWriteComplete => FrameRoundTrip.abortAnchorWriteComplete
  | .zeroAnchorWriteComplete => FrameRoundTrip.zeroAnchorWriteComplete
  | .formatConfigWriteComplete => FrameRoundTrip.formatConfigWriteComplete
  | .zeroSlotWriteComplete => FrameRoundTrip.zeroSlotWriteComplete
  | .formatAnchorWriteComplete => FrameRoundTrip.formatAnchorWriteComplete
  | .saveConfigWriteComplete => FrameRoundTrip.saveConfigWriteComplete
  | .armingReadComplete => FrameRoundTrip.armingReadComplete
  | .configReadComplete => FrameRoundTrip.configReadComplete
  | .anchorReadComplete => FrameRoundTrip.anchorReadComplete
  | .scanSlotReadComplete => FrameRoundTrip.scanSlotReadComplete
  | .recoveryAnchorWriteComplete => FrameRoundTrip.recoveryAnchorWriteComplete
  | .ageTick => FrameRoundTrip.ageTick
  | .ageExpiry => FrameRoundTrip.ageExpiry
  | .pfwAssert => FrameRoundTrip.pfwAssert
  | .pfwDeassert => FrameRoundTrip.pfwDeassert
  | .powerOn => FrameRoundTrip.powerOn
  | .powerLoss => FrameRoundTrip.powerLoss
  | .powerResetEnd => FrameRoundTrip.powerResetEnd
  | .rstnAssert => FrameRoundTrip.rstnAssert
  | .rstnDeassert => FrameRoundTrip.rstnDeassert
  | .managementByteComplete byte => FrameRoundTrip.managementByteComplete byte

end Sys2Proof.Proofs

namespace Sys2Proof.Proofs
open Sys2Proof.Machine Sys2Proof.Laws

/-- Settles O3: the round trip row by row, and back by the code's command or, with none, as a BAD_COMMAND_FRAME. -/
theorem framesDecodeBothWays : Obligations.FramesDecodeBothWays := by
  refine ⟨frameRoundTrip, fun code args i h => ?_⟩
  unfold decodeFrame at h
  split at h
  case h_1 c named =>
    obtain rfl := code_of_ofCode named
    exact ⟨(frameOf_of_decodeArgs h).1, wellFormed_of_commandOf (frameOf_of_decodeArgs h).2⟩
  case h_2 unknown =>
    split at h <;> cases h
    next short => exact ⟨rfl, by simp [Instr.wellFormed, unknown, short]⟩

end Sys2Proof.Proofs
end

section
-- One declaration at a time: each thread that waits for another reserves memory of the check.
set_option Elab.async false
/-! What a row can do to the state, said once. A row is a chain of `Change`s: each is one effect of the manual with what
the row knows when it takes place, and a classification of the host's request is a change of its own. The resets and the
clearing of the hold flag stand beside the chain (`exec_cases`), so that a law kept by every change and by these is kept by
every step (`Kept.step`). -/

namespace Sys2Proof.Proofs
open Sys2Proof.Machine Sys2Proof.Laws

/-! ## The outcomes of a classification -/

/-- A write queued with its answer given (R110). -/
def joined (s : State) (r : HostRequest) (x : RegionIndex) (tag : Option Serial) (append : Option Append) : State :=
  { s.completeHost 0 with host.queue := s.host.queue ++ [queueEntryOf r x tag append] }

/-- What a classification of the request presented can come to, with what it has found (R103 to R109, R115). -/
inductive Classified (s : State) : State → Prop
  | nothing (none : s.lines.presented = none) : Classified s s
  | held (x : HoldReason) : Classified s (s.holdHost x)
  | waits (r : HostRequest) (shown : s.lines.presented = some r) (free : s.control.hold = false) :
      Classified s { s with host.phase := .grantWait }
  | completed (free : s.control.hold = false) : Classified s (s.completeHost 0)
  | refused (r : HostRequest) (x : RefusalReason) (free : s.control.hold = false) : Classified s (s.refuseHost r x)
  | doomed (r : HostRequest) (x : RefusalReason) (free : s.control.hold = false) (live : s.epoch.state = .opened) :
      Classified s (s.doom.refuseHost r x)
  | plain (r : HostRequest) (x : RegionIndex) (cls : RegionClass) (width : Width) (policy : OutsidePolicy)
      (free : s.control.hold = false) (loaded : s.control.device ≠ .starting) (room : s.host.queue.length < 8)
      (place : s.lookup r.addr = .region x cls width policy) : Classified s (joined s r x none none)
  | hit (r : HostRequest) (x : RegionIndex) (cls : RegionClass) (width : Width) (policy : OutsidePolicy)
      (free : s.control.hold = false) (loaded : s.control.device ≠ .starting) (room : s.host.queue.length < 8)
      (place : s.lookup r.addr = .region x cls width policy)
      (live : s.epoch.state = .opened) (covered : s.covered (blockOf r.addr) = true) :
      Classified s (joined s r x (some s.epoch.serial) none)
  | claimed (r : HostRequest) (x : RegionIndex) (cls : RegionClass) (width : Width) (policy : OutsidePolicy)
      (free : s.control.hold = false) (loaded : s.control.device ≠ .starting) (room : s.host.queue.length < 8)
      (place : s.lookup r.addr = .region x cls width policy)
      (live : s.epoch.state = .opened) (apart : s.covered (blockOf r.addr) = false) (left : s.epoch.reserved < s.slots) :
      Classified s
        (joined (s.reserve (blockOf r.addr) s.epoch.reserved) r x (some s.epoch.serial)
          (some { sequence := s.epoch.reserved, spill := decide (Config.setCapacity ≤ s.loggedSet.length) }))

theorem classified_acceptRead {s : State} {r : HostRequest} (shown : s.lines.presented = some r) :
    Classified s (s.acceptRead r) := by
  unfold State.acceptRead
  split; · exact .held _
  split; · exact .held _
  next free =>
    have free := Bool.eq_false_iff.2 free
    split
    · exact .refused r _ free
    · exact .refused r _ free
    · exact .refused r _ free
    · split; · exact .held _
      split; · exact .held _
      split; · exact .held _
      exact .waits r shown free

theorem post_eq (s : State) (r : HostRequest) (x : RegionIndex) (tag : Option Serial) (append : Option Append) :
    s.post r x tag append = if r.lanes = .neither then s.completeHost 0 else joined s r x tag append := rfl

theorem classified_acceptWrite (s : State) (r : HostRequest) : Classified s (s.acceptWrite r) := by
  unfold State.acceptWrite
  split; · exact .held _
  next loaded =>
  split; · exact .held _
  next free =>
  have free := Bool.eq_false_iff.2 free
  split; · exact .held _
  split
  · exact .refused r _ free
  · exact .refused r _ free
  · exact .refused r _ free
  next x cls width policy place =>
  split; · exact .refused r _ free
  split; · exact .refused r _ free
  split; · exact .held _
  next room =>
  have room : s.host.queue.length < 8 := not_le.1 room
  have plain : Classified s (s.post r x none none) := by
    rw [post_eq]
    split
    · exact .completed free
    · exact .plain r x cls width policy free loaded room place
  split; · exact .held _
  split; · exact .held _
  unfold State.fifthStep
  split
  · exact plain
  · exact .refused r _ free
  split
  · split
    · exact plain
    · exact .refused r _ free
  · next live =>
    unfold State.journaledWrite
    split; · exact .completed free
    next lanes =>
    split
    case isTrue covered =>
      rw [post_eq, if_neg lanes]
      exact .hit r x _ width policy free loaded room place live covered
    case isFalse apart =>
      split
      · next sequence granted =>
        unfold State.claim at granted
        split at granted; · cases granted
        split at granted <;> cases granted
        next left =>
          rw [post_eq, if_neg lanes]
          exact .claimed r x _ width policy free loaded room place live (Bool.eq_false_iff.2 apart) left
      · exact .doomed r _ free live
      · exact .held _
  · exact .refused r _ free
  · exact .held _
  · exact .held _

theorem joined_reserve_phase (s : State) (p : HostPhase) (b q : Nat) (r : HostRequest) (x : RegionIndex)
    (tag : Option Serial) (append : Option Append) :
    joined (({ s with host.phase := p } : State).reserve b q) r x tag append = joined (s.reserve b q) r x tag append := by
  unfold State.reserve
  split <;> rfl

/-- The phase that a classification finds plays no part in its outcome. -/
theorem Classified.of_phase {s t : State} {p : HostPhase} (shown : s.lines.presented ≠ none)
    (h : Classified { s with host.phase := p } t) : Classified s t := by
  cases h with
  | nothing none => exact absurd none shown
  | held x => exact .held x
  | waits r shown free => exact .waits r shown free
  | completed free => exact .completed free
  | refused r x free => exact .refused r x free
  | doomed r x free live => exact .doomed r x free live
  | plain r x cls width policy free loaded room place => exact .plain r x cls width policy free loaded room place
  | hit r x cls width policy free loaded room place live covered =>
    exact .hit r x cls width policy free loaded room place live covered
  | claimed r x cls width policy free loaded room place live apart left =>
    rw [joined_reserve_phase]
    exact .claimed r x cls width policy free loaded room place live apart left

/-- Every classification comes to one of the outcomes. -/
theorem classified (s : State) : Classified s s.classify := by
  unfold State.classify
  split
  next r shown =>
    have some : s.lines.presented ≠ none := by simp [shown]
    split
    · exact (classified_acceptWrite _ r).of_phase some
    · exact (classified_acceptRead (s := { s with host.phase := .classifying }) shown).of_phase some
  next none => exact .nothing none

/-- A reservation touches the epoch record and the set alone. -/
theorem reserve_changes (s : State) (b q : Nat) :
    s.reserve b q = { s with epoch := (s.reserve b q).epoch, loggedSet := (s.reserve b q).loggedSet } := by
  unfold State.reserve
  split <;> rfl

/-- A classification leaves the lines that the outside drives, but for the request it answers. -/
theorem Classified.drives {s t : State} (h : Classified s t) :
    t.lines.supply = s.lines.supply ∧ t.lines.rstn = s.lines.rstn ∧ t.lines.pfw = s.lines.pfw ∧
      t.lines.csLow = s.lines.csLow := by
  cases h with
  | claimed => rw [reserve_changes]; exact ⟨rfl, rfl, rfl, rfl⟩
  | _ => exact ⟨rfl, rfl, rfl, rfl⟩

theorem running_eq {s t : State} (supply : t.lines.supply = s.lines.supply) (rstn : t.lines.rstn = s.lines.rstn) :
    t.running = s.running := by
  simp only [State.running, supply, rstn]

theorem running_classify (s : State) : s.classify.running = s.running :=
  running_eq (classified s).drives.1 (classified s).drives.2.1

/-! ## The changes -/

/-- The epoch's entries cancelled and the state ROLLING_BACK, before the run starts (R14, R113). -/
def cancelled (s : State) : State :=
  { s with
    epoch := { s.epoch with state := .rollingBack, ageRunning := false }
    host.queue := cancelQueue s.epoch.serial s.host.queue }

/-- FORMAT taken, before the drain's end (R55, R56). -/
def formatStarted (s : State) : State :=
  { s with
    journal := { s.journal with status := .formatting, format := some { old := s.journal.live, step := .drain } } }

/-- FORMAT's step 2 before the request held is classified afresh (R57). -/
def formatSwitched (s : State) : State :=
  State.disarmInJournal
    { s with
      journal :=
        { s.journal with
          live := s.journal.staged.getD s.journal.live
          staged := none
          format := s.journal.format.map (fun job => { job with step := .zeroFirst }) } }

/-- A journal is configured: RECOVERING, before the request held is classified afresh (R136). -/
def recovering (s : State) : State :=
  { s with control := { s.control with device := .recovering, step := .anchorRead, firstCopy := none } }

/-- One change of the state by a row that neither resets the part nor clears the hold flag. -/
inductive Change (s : State) : State → Prop
  /-- The frame record and chip select move together (R170 to R172). -/
  | frame (f : Frame) (cs : Bool) (up : s.running = true)
      (agree : (s.frame.phase = .idle ↔ s.lines.csLow = false) → (f.phase = .idle ↔ cs = false))
      (bits : s.frame.bits ≤ 7 → f.bits ≤ 7) : Change s { s with frame := f, lines.csLow := cs }
  /-- The host presents a request to a part that runs (R99, R100). -/
  | present (r : HostRequest) (up : s.running = true) (free : s.lines.presented = none) :
      Change s (State.classify
        { s with lines := { s.lines with presented := some r, ready := false, error := false, hostData := 0 } })
  /-- A request held or in GRANT_WAIT is classified afresh (R101, R117). -/
  | classify (waits : (∃ x, s.host.phase = .held x) ∨ s.host.phase = .grantWait) : Change s s.classify
  /-- The free port grants a request (R125 to R127). -/
  | grant (k : OpKind) (up : s.running = true) (free : s.port.op = none) (next : s.nextGrant = some k) :
      Change s (s.grant k)
  /-- A free value is used (logs 3 and 29). -/
  | countFree : Change s { s with freeCount := s.freeCount + 1 }
  /-- The Event Unit's record changes, its refusal count within its range (R162 to R169). -/
  | events (e : Events) (awake : s.running = true ∨ s.epoch.state ≠ .idle)
      (bound : s.events.refusals ≤ 255 → e.refusals ≤ 255) : Change s { s with events := e }
  /-- The hold flag is set with PFW (R146). -/
  | hold : Change s { s with control.hold := true, lines.pfw := true }
  /-- The hold pauses a run (R76). -/
  | pauseRun : Change s s.pauseRun
  /-- The hold holds a read in GRANT_WAIT (R119). -/
  | holdRead (waits : s.host.phase = .grantWait) (hold : s.control.hold = true) : Change s (s.holdHost .power)
  /-- The age timer moves (R17 to R20). -/
  | age (elapsed : BitVec 16) (runs : Bool) (live : s.epoch.state = .opened ∨ s.epoch.state = .doomed) :
      Change s { s with epoch := { s.epoch with ageElapsed := elapsed, ageRunning := runs } }
  /-- BEGIN taken (R3). -/
  | begin (ready : s.control.device = .ready) (free : s.control.hold = false) (idle : s.epoch.state = .idle)
      (format : s.journal.format = none) (formatted : s.journal.status = .formatted) :
      Change s { s with epoch := { state := .opened, serial := s.epoch.serial, ageRunning := s.timed } }
  /-- COMMIT taken (R10). -/
  | commit (free : s.control.hold = false) (live : s.epoch.state = .opened) :
      Change s { s with epoch := { s.epoch with state := .closing, ageRunning := false } }
  /-- ABORT taken, or an expiry under policy ABORT (R14, R15, R20, R113). -/
  | abort (free : s.control.hold = false) (live : s.epoch.state = .opened ∨ s.epoch.state = .doomed) :
      Change s (cancelled s).startAbortRun
  /-- SET_JOURNAL taken (R54). -/
  | stageJournal (l : Location) (ready : s.control.device = .ready) (idle : s.storing = false)
      (valid : l.validForUse = true)
      (apart : s.regions.live.overlapsArea l = false)
      (apartStaged : ∀ t, s.regions.staged = some t → t.overlapsArea l = false) :
      Change s { s with journal.staged := some l }
  /-- FORMAT taken (R55). -/
  | startFormat (ready : s.control.device = .ready) (free : s.control.hold = false) (idle : s.epoch.state = .idle)
      (spare : s.storing = false) (place : s.journal.staged = none → s.journal.live.slots ≠ 0) :
      Change s (formatStarted s)
  /-- FORMAT's drain ends (R56, R57). -/
  | switchFormat (drains : s.draining = true) (empty : s.host.queue = []) : Change s (formatSwitched s)
  /-- SET_REGION taken (R83 to R85). -/
  | editDescriptor (i : Fin 16) (d : Descriptor) (ready : s.control.device = .ready)
      (valid : d.valid = true → d.first.toNat ≤ d.last.toNat ∧ s.conflicts i d = false) :
      Change s (s.storeTable { s.editedTable with descs := s.editedTable.descs.set i d })
  /-- SET_DEFAULTS taken (R86). -/
  | editDefaults (d : Defaults) (ready : s.control.device = .ready) :
      Change s (s.storeTable { s.editedTable with defaults := d })
  /-- SAVE_CONFIG taken (R94). -/
  | save (up : s.running = true) (free : s.control.hold = false) : Change s { s with regions.saving := true }
  /-- ARM_MONITOR taken (R153). -/
  | arm (i : Fin 8) (addr : WordAddr) (mask compare : Word) (trigger : Trigger) (ready : s.control.device = .ready)
      (free : s.control.hold = false) (apart : s.monitors[i].state ≠ .arming) (place : s.unwatchable addr = false) :
      Change s { s with monitors := s.monitors.set i (s.monitors[i].arm addr mask compare trigger) }
  /-- DISARM_MONITOR taken (R155). -/
  | disarm (i : Fin 8) (up : s.running = true) : Change s (s.disarm i)
  /-- RESTART taken (R135). -/
  | restart (up : s.running = true) : Change s { s with control.restartPending := true }
  /-- A host read completes (R117). -/
  | hostRead (op : Operation) (busy : s.port.op = some op) (kind : op.kind = .hostRead) (w : Word) :
      Change s ((s.afterOp op).completeHost w)
  /-- The head's word write completes (R111, R131). -/
  | queueWrite (op : Operation) (busy : s.port.op = some op) (kind : op.kind = .queueWrite) :
      Change s ((s.afterOp op).showWrite op.start op.writes op.lanes .host).popQueue
  /-- The block read of an append completes (R43). -/
  | appendRead (op : Operation) (busy : s.port.op = some op) (kind : op.kind = .appendRead) :
      Change s { s.afterOp op with journal.preimage := some (s.wordsRead op) }
  /-- The slot write of an append completes outside ROLLING_BACK (R45). -/
  | appendWrite (op : Operation) (busy : s.port.op = some op) (kind : op.kind = .appendWrite)
      (live : s.epoch.state ≠ .rollingBack) : Change s ((s.afterOp op).reportRecord.headProgress .writeWaiting)
  /-- The slot write of a cancelled append completes (R14, R15, R113). -/
  | cancelledAppend (op : Operation) (busy : s.port.op = some op) (kind : op.kind = .appendWrite)
      (back : s.epoch.state = .rollingBack) : Change s (s.afterOp op).reportRecord.popQueue.startAbortRun
  /-- The slot read of a run finds a valid record (R68). -/
  | foundRecord (op : Operation) (busy : s.port.op = some op) (kind : op.kind = .rollbackRead) (block : Nat)
      (words : List Word)
      (judged : judgeRecord s.rollback.expected (s.rollback.remaining - 1) s.journal.live (s.wordsRead op) =
        some (block, words)) : Change s { s.afterOp op with rollback.phase := .restore block words }
  /-- The slot read of a run finds a damaged record (R70). -/
  | damagedRecord (op : Operation) (busy : s.port.op = some op) (kind : op.kind = .rollbackRead) :
      Change s (s.afterOp op).damagedRecord
  /-- A restore completes (R69, R131). -/
  | restore (op : Operation) (busy : s.port.op = some op) (kind : op.kind = .restore) :
      Change s ((s.afterOp op).showWrite op.start op.writes op.lanes .rollback).finishRecord
  /-- The commit anchor write completes (R12, R13, R51). -/
  | commitAnchor (op : Operation) (c : Copy) (busy : s.port.op = some op) (kind : op.kind = .commitAnchor c) :
      Change s (((s.afterOp op).installAnchor c (s.epoch.serial + 1) s.closingTail).raise .commitDone).atIdle
  /-- The abort anchor write completes (R16, R71). -/
  | abortAnchor (op : Operation) (c : Copy) (busy : s.port.op = some op) (kind : op.kind = .abortAnchor c) :
      Change s (((s.afterOp op).installAnchor c (s.epoch.serial + 1) s.closingTail).endRun.raise .abortDone).atIdle
  /-- A zero anchor or a zero slot write completes (R58, R60). -/
  | zeroed (op : Operation) (busy : s.port.op = some op) (kind : (∃ c, op.kind = .zeroAnchor c) ∨ op.kind = .zeroSlot) :
      Change s (s.afterOp op).advanceFormat
  /-- FORMAT's configuration write completes (R59). -/
  | formatConfig (op : Operation) (c : Copy) (busy : s.port.op = some op) (kind : op.kind = .formatConfig c) :
      Change s ((s.afterOp op).installConfig c).advanceFormat
  /-- FORMAT's final anchor write completes (R60). -/
  | formatAnchor (op : Operation) (busy : s.port.op = some op) (kind : op.kind = .formatAnchor) :
      Change s ((s.afterOp op).finishFormat.raise .formatDone)
  /-- SAVE_CONFIG's write completes (R95). -/
  | saved (op : Operation) (c : Copy) (busy : s.port.op = some op) (kind : op.kind = .saveConfig c) :
      Change s (State.raise { (s.afterOp op).installConfig c with regions.saving := false } .configSaved)
  /-- An arming read completes for a cell that waits for it (R154). -/
  | armed (op : Operation) (i : Fin 8) (busy : s.port.op = some op) (kind : op.kind = .arming i true) :
      Change s ((s.afterOp op).armed i (readWord s.mem op.start))
  /-- An arming read whose cell was disarmed meanwhile is discarded (R154). -/
  | discarded (op : Operation) (i : Fin 8) (busy : s.port.op = some op) (kind : op.kind = .arming i false) :
      Change s (s.afterOp op)
  /-- Copy A of the configuration or of the anchor is kept while copy B is read (R179). -/
  | firstCopy (op : Operation) (busy : s.port.op = some op)
      (kind : op.kind = .configRead .a ∨ op.kind = .anchorRead .a) :
      Change s { s.afterOp op with control.firstCopy := some (s.wordsRead op) }
  /-- No configuration copy is valid (R93). -/
  | configNone (op : Operation) (busy : s.port.op = some op) (kind : op.kind = .configRead .b) :
      Change s ((s.afterOp op).raise .configInvalid).atReady
  /-- The configuration loaded names no journal (R136). -/
  | configReady (op : Operation) (c : Copy) (ws : List Word) (x : StoredConfig) (busy : s.port.op = some op)
      (kind : op.kind = .configRead .b) (judged : judgeConfig ws = some x) (slots : x.location.slots = 0) :
      Change s ((s.afterOp op).loadConfig c x).atReady
  /-- The configuration loaded names a journal (R136). -/
  | configJournal (op : Operation) (c : Copy) (ws : List Word) (x : StoredConfig) (busy : s.port.op = some op)
      (kind : op.kind = .configRead .b) (judged : judgeConfig ws = some x) (slots : x.location.slots ≠ 0) :
      Change s (recovering ((s.afterOp op).loadConfig c x))
  /-- No anchor is valid (R138). -/
  | anchorNone (op : Operation) (busy : s.port.op = some op) (kind : op.kind = .anchorRead .b) :
      Change s ((s.afterOp op).raise .journalInvalid).atReady
  /-- An anchor is selected and the scan begins (R138). -/
  | anchorFound (op : Operation) (busy : s.port.op = some op) (kind : op.kind = .anchorRead .b) (c : Copy) (a : Anchor) :
      Change s
        { (s.afterOp op).installAnchor c a.next a.tail with
          control := { s.control with step := .scan, scanIndex := 0, firstCopy := none } }
  /-- The scan goes on to its next slot (R139). -/
  | scanNext (op : Operation) (busy : s.port.op = some op) (kind : op.kind = .scanRead) :
      Change s { s.afterOp op with control.scanIndex := s.control.scanIndex + 1 }
  /-- The scan ends with no record (R140). -/
  | scanNone (op : Operation) (busy : s.port.op = some op) (kind : op.kind = .scanRead) :
      Change s (State.atReady
        { s.afterOp op with
          epoch.serial := s.journal.anchorSerial
          journal.status := .formatted
          control := { s.control with lastN := 0, lastDamage := 0 } })
  /-- The scan ends with records to restore (R141). -/
  | scanRun (op : Operation) (busy : s.port.op = some op) (kind : op.kind = .scanRead) (n : Nat) (found : n ≠ 0) :
      Change s ((s.afterOp op).startRecoveryRun n)
  /-- The recovery anchor write completes (R141). -/
  | recovered (op : Operation) (c : Copy) (busy : s.port.op = some op) (kind : op.kind = .recoveryAnchor c) :
      Change s
        (((s.afterOp op).installAnchor c (s.journal.anchorSerial + 1) s.recoveryTail).finishRecovery.raise
          .recovered).atReady

/-- A chain of changes. -/
abbrev Changes : State → State → Prop := Relation.ReflTransGen Change

variable {s t u : State} {op : Operation} {i : Instr}

theorem Changes.refl : Changes s s := Relation.ReflTransGen.refl

theorem Change.once (h : Change s t) : Changes s t := Relation.ReflTransGen.single h

theorem Changes.then (h : Changes s t) (g : Changes t u) : Changes s u := Relation.ReflTransGen.trans h g

/-- A law that every change keeps is kept by a chain of them. -/
theorem Changes.keep {P : State → Prop} (change : ∀ s t, P s → Change s t → P t) (h : Changes s t) (start : P s) :
    P t := by
  induction h with
  | refl => exact start
  | tail _ last ih => exact change _ _ ih last

/-! ## The notices and the classifications -/

/-- A request waiting that is classified afresh, or nothing. -/
theorem changes_classifiedIf (b : Bool)
    (waits : b = true → (∃ x, s.host.phase = .held x) ∨ s.host.phase = .grantWait) : Changes s (s.classifiedIf b) := by
  cases b
  · exact .refl
  · exact (Change.classify (waits rfl)).once

theorem changes_reclassify (x : HoldReason) : Changes s (s.reclassify x) := by
  unfold State.reclassify
  split
  case isTrue held => exact (Change.classify (.inl ⟨x, held⟩)).once
  case isFalse => exact .refl

theorem changes_reclassifyGrantWait : Changes s s.reclassifyGrantWait := by
  unfold State.reclassifyGrantWait
  split
  case isTrue waits => exact (Change.classify (.inr waits)).once
  case isFalse => exact .refl

theorem formatSwitch_eq_reclassify : s.formatSwitch = (formatSwitched s).reclassify .formatDrain := rfl

theorem changes_drainNotice : Changes s s.drainNotice := by
  unfold State.drainNotice
  split
  case isTrue ends =>
    rw [formatSwitch_eq_reclassify]
    exact (Change.switchFormat ends.1 ends.2).once.then (changes_reclassify _)
  case isFalse => exact .refl

theorem changes_blockOrderNotice : Changes s s.blockOrderNotice := by
  unfold State.blockOrderNotice
  split
  · split
    · exact .refl
    · exact changes_reclassify _
  · exact .refl

theorem changes_leaveNotices : Changes s s.leaveNotices :=
  ((changes_reclassify _).then changes_blockOrderNotice).then changes_drainNotice

/-! ## The owners' rules -/

theorem changes_raise (f : EventFlag) (awake : s.running = true ∨ s.epoch.state ≠ .idle) : Changes s (s.raise f) :=
  (Change.events (s.events.raise f) awake id).once

theorem changes_abortEpoch (free : s.control.hold = false) (live : s.epoch.state = .opened ∨ s.epoch.state = .doomed) :
    Changes s s.abortEpoch := by
  have run : Changes s (cancelled s).startAbortRun.reclassifyGrantWait :=
    (Change.abort free live).once.then changes_reclassifyGrantWait
  refine run.then ?_
  change Changes _ (State.cancelNotices _ _)
  unfold State.cancelNotices
  split
  · exact changes_leaveNotices
  · exact .refl

theorem changes_takeBegin (ready : s.control.device = .ready) (free : s.control.hold = false) :
    Changes s (takeBegin s).after := by
  unfold takeBegin
  split; · exact .refl
  split; · exact .refl
  split; · exact .refl
  split; · exact .refl
  next idle format formatted _ =>
    exact (Change.begin ready free (not_not.1 idle) (by simpa using format) (not_not.1 formatted)).once

theorem changes_takeCommit (free : s.control.hold = false) : Changes s (takeCommit s).after := by
  unfold takeCommit
  split
  case h_1 live => exact (Change.commit free live).once
  all_goals exact .refl

theorem changes_takeAbort (free : s.control.hold = false) : Changes s (takeAbort s).after := by
  unfold takeAbort
  split
  case h_1 live => exact changes_abortEpoch free (.inl live)
  case h_2 live => exact changes_abortEpoch free (.inr live)
  all_goals exact .refl

theorem changes_takeRenew : Changes s (takeRenew s).after := by
  unfold takeRenew
  split
  case h_1 live => exact (Change.age 0 s.timed (.inl live)).once
  case h_2 live => exact (Change.age 0 s.timed (.inr live)).once
  all_goals exact .refl

theorem changes_takeClearEvents (mask : BitVec 24) (up : s.running = true) : Changes s (takeClearEvents mask s).after := by
  unfold takeClearEvents
  split
  · exact (Change.events { s.events with flags := s.events.flags &&& ~~~(mask.setWidth 22) } (.inl up) id).once
  · exact .refl

theorem changes_takeSetEventEnables (mask : BitVec 24) (up : s.running = true) : Changes s (takeSetEventEnables mask s).after := by
  unfold takeSetEventEnables
  split
  · exact (Change.events { s.events with enables := mask.setWidth 22 } (.inl up) id).once
  · exact .refl

theorem changes_takeArmMonitor (index : Byte) (addr : BitVec 24) (mask compare : Word) (trigger : Byte)
    (ready : s.control.device = .ready) (free : s.control.hold = false) :
    Changes s (takeArmMonitor index addr mask compare trigger s).after := by
  unfold takeArmMonitor
  split
  case isTrue cell =>
    split; · exact .refl
    split; · exact .refl
    next t _ =>
      split; · exact .refl
      next apart =>
        split; · exact .refl
        next place =>
          exact (Change.arm ⟨index.toNat, cell⟩ (addr.setWidth 20) mask compare t ready free apart
            (Bool.eq_false_iff.2 place)).once
  case isFalse => exact .refl

theorem changes_takeDisarmMonitor (index : Byte) (up : s.running = true) : Changes s (takeDisarmMonitor index s).after := by
  unfold takeDisarmMonitor
  split
  case isTrue cell => exact (Change.disarm ⟨index.toNat, cell⟩ up).once
  case isFalse => exact .refl

theorem changes_takeSetJournal (base slots : Word) (ready : s.control.device = .ready) :
    Changes s (takeSetJournal base slots s).after := by
  simp only [takeSetJournal]
  split; · exact .refl
  next idle =>
    split; · exact .refl
    next range =>
      split; · exact .refl
      next free =>
        split; · exact .refl
        next apart =>
          split; · exact .refl
          simp only [not_or] at range apart
          refine (Change.stageJournal { base := base, slots := slots } ready (Bool.eq_false_iff.2 idle) ?_ ?_ ?_).once
          · have : slots.toNat ≠ 0 := fun h => range.1 (BitVec.eq_of_toNat_eq (by simpa using h))
            simp only [Location.validForUse, Bool.and_eq_true, decide_eq_true_eq]
            exact ⟨⟨⟨not_lt.1 free, Nat.one_le_iff_ne_zero.2 this⟩, not_lt.1 range.2.1⟩, not_lt.1 range.2.2⟩
          · exact Bool.eq_false_iff.2 apart.1
          · intro t staged
            simpa [staged] using apart.2

theorem changes_startFormat (ready : s.control.device = .ready) (free : s.control.hold = false)
    (idle : s.epoch.state = .idle) (spare : s.storing = false) (place : s.journal.staged = none → s.journal.live.slots ≠ 0) :
    Changes s s.startFormat :=
  ((Change.startFormat ready free idle spare place).once.then changes_reclassifyGrantWait).then changes_drainNotice

theorem changes_takeFormat (ready : s.control.device = .ready) (free : s.control.hold = false) :
    Changes s (takeFormat s).after := by
  unfold takeFormat
  split; · exact .refl
  next idle =>
    split; · exact .refl
    next none =>
      split; · exact .refl
      next place =>
        split; · exact .refl
        exact changes_startFormat ready free (not_not.1 idle) (Bool.eq_false_iff.2 none)
          fun empty slots => place ⟨empty, slots⟩

theorem changes_takeSetRegion (index valid : Byte) (first last : Word) (cls width policy : Byte)
    (ready : s.control.device = .ready) :
    Changes s (takeSetRegion index valid first last cls width policy s).after := by
  unfold takeSetRegion
  split; · exact .refl
  split
  case isFalse => exact .refl
  case isTrue cell =>
    split
    · exact .refl
    · exact (Change.editDescriptor ⟨index.toNat, cell⟩ {} ready (fun h => absurd h (by decide))).once
    · split
      · exact .refl
      next d offered =>
        split
        · exact .refl
        next free =>
          refine (Change.editDescriptor ⟨index.toNat, cell⟩ d ready fun _ => ⟨?_, Bool.eq_false_iff.2 free⟩).once
          unfold offeredDescriptor at offered
          split at offered
          · split at offered <;> cases offered
            assumption
          · cases offered

theorem changes_takeSetDefaults (cls : Byte) (ageLimit : Word) (policy : Byte) (ready : s.control.device = .ready) :
    Changes s (takeSetDefaults cls ageLimit policy s).after := by
  unfold takeSetDefaults
  split; · exact .refl
  split
  · exact (Change.editDefaults _ ready).once
  · exact .refl

theorem changes_takeSaveConfig (up : s.running = true) (free : s.control.hold = false) : Changes s (takeSaveConfig s).after := by
  unfold takeSaveConfig
  split; · exact .refl
  split; · exact .refl
  split; · exact .refl
  exact (Change.save up free).once

/-- What a command does that both gates have passed. -/
theorem changes_ownerRule {c : Command} (up : s.running = true) (row : commandOf i = some c)
    (ready : s.control.device = .ready ∨ startGate c = true) (free : s.control.hold = false ∨ holdGate c = true) :
    Changes s (ownerRule i s).after := by
  cases i <;> cases row <;> simp only [startGate, holdGate, reduceCtorEq, or_false, or_true] at ready free
  case status | readEvents | readFault => exact .refl
  case begin => exact changes_takeBegin ready free
  case commit => exact changes_takeCommit free
  case abort => exact changes_takeAbort free
  case renew => exact changes_takeRenew
  case readSet => simp only [ownerRule, takeReadSet]; split <;> exact .refl
  case setJournal => exact changes_takeSetJournal _ _ ready
  case format => exact changes_takeFormat ready free
  case setRegion => exact changes_takeSetRegion _ _ _ _ _ _ _ ready
  case getRegion => simp only [ownerRule, takeGetRegion]; split <;> exact .refl
  case setDefaults => exact changes_takeSetDefaults _ _ _ ready
  case saveConfig => exact changes_takeSaveConfig up free
  case armMonitor => exact changes_takeArmMonitor _ _ _ _ _ ready free
  case disarmMonitor => exact changes_takeDisarmMonitor _ up
  case getMonitor => simp only [ownerRule, takeGetMonitor]; split <;> exact .refl
  case clearEvents => exact changes_takeClearEvents _ up
  case setEventEnables => exact changes_takeSetEventEnables _ up
  case clearFault =>
    exact (Change.events { s.events with fault := none, refusals := 0 } (.inl up) (fun _ => Nat.zero_le _)).once
  case restart => exact (Change.restart up).once

/-! ## The frame -/

theorem changes_gated {c : Command} (up : s.running = true) (row : commandOf i = some c) : Changes s (s.gated c (ownerRule i)).after := by
  rcases gated_cases (s := s) (c := c) (own := ownerRule i) with ⟨refused, _⟩ | ⟨taken, ready, free⟩
  · rw [refused]; exact .refl
  · rw [taken]; exact changes_ownerRule up row ready free

theorem changes_decideFrame (code : Byte) (args : List Byte) (up : s.running = true) : Changes s (decideFrame code args s).after := by
  unfold decideFrame
  split
  · exact .refl
  · split
    · split
      next decoded => exact changes_gated up (frameOf_of_decodeArgs decoded).2
      · exact .refl
    · exact .refl

/-! ## What each shared operation touches -/

theorem pauseRun_changes (s : State) : s.pauseRun = { s with rollback.phase := s.pauseRun.rollback.phase } := by
  unfold State.pauseRun
  split
  · split <;> rfl
  · split <;> rfl
  all_goals rfl

theorem resumeRun_changes (s : State) : s.resumeRun = { s with rollback.phase := s.resumeRun.rollback.phase } := by
  unfold State.resumeRun
  split <;> rfl

theorem startAbortRun_changes (s : State) :
    s.startAbortRun =
      { s with epoch.reserved := s.startAbortRun.epoch.reserved, rollback := s.startAbortRun.rollback } := by
  unfold State.startAbortRun
  split <;> rfl

theorem storeTable_changes (s : State) (x : RegionTable) :
    s.storeTable x = { s with regions := (s.storeTable x).regions } := by
  unfold State.storeTable
  split <;> rfl

theorem discardArming_changes (s : State) (i : Fin 8) :
    s.discardArming i = { s with port.op := (s.discardArming i).port.op } := by
  unfold State.discardArming
  split
  · split <;> rfl
  · rfl

theorem disarm_changes (s : State) (i : Fin 8) :
    s.disarm i =
      { s with
        monitors := s.monitors.set i { s.monitors[i] with state := .disarmed }
        port.op := (s.disarm i).port.op } := discardArming_changes _ i

theorem advanceFormat_changes (s : State) :
    s.advanceFormat = { s with journal.format := s.advanceFormat.journal.format } := by
  unfold State.advanceFormat
  split <;> rfl

theorem headProgress_changes (s : State) (p : Progress) :
    s.headProgress p = { s with host.queue := (s.headProgress p).host.queue } := by
  unfold State.headProgress
  split <;> rfl

/-- FORMAT's step 2 puts each cell on the location that becomes live into DISARMED (R57). -/
theorem formatSwitched_monitor (s : State) (i : Fin 8) :
    (formatSwitched s).monitors[i] =
      if s.monitors[i].state ≠ .disarmed ∧
          (s.journal.staged.getD s.journal.live).covers (blockOf s.monitors[i].addr) = true then
        { s.monitors[i] with state := .disarmed }
      else s.monitors[i] := by
  simp [formatSwitched, State.disarmInJournal, State.watchesJournal]

/-! ## What no change touches -/

/-- No change but a frame's touches the frame record, none touches the queue of waiting commands, and the lines that the
outside drives move only with the frame and the hold. -/
theorem Change.outside (h : Change s t) :
    t.pending = s.pending ∧ t.running = s.running ∧
      (s.control.hold = s.lines.pfw → t.control.hold = t.lines.pfw) ∧
      ((s.frame.phase = .idle ↔ s.lines.csLow = false) → (t.frame.phase = .idle ↔ t.lines.csLow = false)) := by
  have same : ∀ t : State, t.pending = s.pending → t.lines = s.lines → t.control.hold = s.control.hold →
      t.frame = s.frame → t.pending = s.pending ∧ t.running = s.running ∧
      (s.control.hold = s.lines.pfw → t.control.hold = t.lines.pfw) ∧
      ((s.frame.phase = .idle ↔ s.lines.csLow = false) → (t.frame.phase = .idle ↔ t.lines.csLow = false)) := by
    intro t p l c f
    rw [p, State.running, State.running, l, c, f]
    exact ⟨rfl, rfl, id, id⟩
  have classify : ∀ u : State, u.classify.pending = u.pending ∧ u.classify.running = u.running ∧
      (u.control.hold = u.lines.pfw → u.classify.control.hold = u.classify.lines.pfw) ∧
      ((u.frame.phase = .idle ↔ u.lines.csLow = false) →
        (u.classify.frame.phase = .idle ↔ u.classify.lines.csLow = false)) := by
    intro u
    obtain ⟨-, -, pfw, cs⟩ := (classified u).drives
    rw [running_classify, classify_pending, classify_control, classify_frame, pfw, cs]
    exact ⟨rfl, rfl, id, id⟩
  cases h with
  | frame f cs up agree bits => exact ⟨rfl, rfl, id, agree⟩
  | present r up free => exact classify _
  | classify waits => exact classify s
  | hold => exact ⟨rfl, rfl, fun _ => rfl, id⟩
  | hostRead => exact ⟨rfl, rfl, id, id⟩
  | grant => rw [grant_changes]; exact same _ rfl rfl rfl rfl
  | pauseRun => rw [pauseRun_changes]; exact same _ rfl rfl rfl rfl
  | abort => rw [startAbortRun_changes]; exact same _ rfl rfl rfl rfl
  | cancelledAppend => rw [startAbortRun_changes]; exact same _ rfl rfl rfl rfl
  | editDescriptor => rw [storeTable_changes]; exact same _ rfl rfl rfl rfl
  | editDefaults => rw [storeTable_changes]; exact same _ rfl rfl rfl rfl
  | disarm => rw [disarm_changes]; exact same _ rfl rfl rfl rfl
  | appendWrite => rw [headProgress_changes]; exact same _ rfl rfl rfl rfl
  | damagedRecord => unfold State.damagedRecord; rw [finishRecord_changes]; exact same _ rfl rfl rfl rfl
  | restore => rw [finishRecord_changes]; exact same _ rfl rfl rfl rfl
  | zeroed => rw [advanceFormat_changes]; exact same _ rfl rfl rfl rfl
  | formatConfig => rw [advanceFormat_changes]; exact same _ rfl rfl rfl rfl
  | _ => exact same _ rfl rfl rfl rfl

theorem Changes.running (h : Changes s t) : t.running = s.running :=
  h.keep (P := fun u => u.running = s.running) (fun _ _ up c => c.outside.2.1.trans up) rfl

theorem Changes.pending (h : Changes s t) : t.pending = s.pending :=
  h.keep (P := fun u => u.pending = s.pending) (fun _ _ same c => c.outside.1.trans same) rfl

/-! ## The bytes of a frame -/

/-- A decision settled in the frame record, chip select low. -/
theorem changes_settle {d : Decision} (code : Byte) (args : List Byte) (up : s.running = true)
    (h : Changes s d.after) : Changes s (d.settle code args) :=
  h.then (Change.frame (decidedFrame code args d.status d.reply) true (h.running.trans up)
    (fun _ => by simp [decidedFrame]) (fun _ => Nat.zero_le _)).once

/-- A byte within a frame moves the frame record. -/
theorem changes_frame (f : Frame) (up : s.running = true) (within : s.frame.phase ≠ .idle) (moved : f.phase ≠ .idle)
    (bits : f.bits = 0) : Changes s { s with frame := f } :=
  (Change.frame f s.lines.csLow up (fun agree => by simp [moved, ← agree, within]) (fun _ => by omega)).once

theorem nextReplyByte_phase (f : Frame) (h : f.phase ≠ .idle) : f.nextReplyByte.phase ≠ .idle := by
  unfold Frame.nextReplyByte
  split
  case h_5 idle => exact absurd idle h
  all_goals (try split) <;> simp_all

theorem changes_frameByte (byte : Byte) (up : s.running = true) : Changes s (s.frameByte byte) := by
  unfold State.frameByte
  split
  · exact .refl
  · exact .refl
  · next p => exact changes_frame _ up (by simp [p]) (by simp) rfl
  · next p =>
    split
    · exact changes_settle _ _ up (changes_decideFrame _ _ up)
    · exact changes_frame _ up (by simp [p]) (by simp) rfl
  · next p =>
    split
    · exact changes_settle _ _ up (changes_decideFrame _ _ up)
    · exact changes_frame _ up (by simp [p]) (by simp [p]) rfl
  all_goals
    next p => exact changes_frame _ up (by simp [p]) (nextReplyByte_phase _ (by simp [p])) rfl

/-! ## The rows -/

theorem changes_command {c : Command} (row : commandOf i = some c) (args : List Byte) :
    Changes s (s.command c args (ownerRule i)) := by
  unfold State.command
  split
  next can =>
    have up := (Bool.and_eq_true_iff.1 can).1
    exact changes_settle _ _ up (changes_gated up row)
  · exact .refl

theorem changes_present (r : HostRequest) (up : s.running = true) : Changes s (s.present r) := by
  simp only [State.present, up, if_true]
  split
  · exact .refl
  next free => exact (Change.present r up (by simpa using free)).once

theorem changes_enterHold (up : s.running = true) : Changes s ({ s with lines.pfw := true } : State).enterHold := by
  have run : Changes s (({ s with control.hold := true, lines.pfw := true } : State).raise .holdEntered).pauseRun :=
    (Change.hold.once.then (changes_raise _ (.inl up))).then Change.pauseRun.once
  refine run.then ?_
  change Changes _ (State.holdGrantWait _)
  unfold State.holdGrantWait
  split
  next waits => exact (Change.holdRead waits (by rw [pauseRun_changes]; rfl)).once
  · exact .refl

theorem changes_expire (free : s.control.hold = false) (live : s.epoch.state = .opened ∨ s.epoch.state = .doomed) :
    Changes s s.expire := by
  have awake : s.epoch.state ≠ .idle := by rcases live with e | e <;> simp [e]
  have expired := (Change.age s.regions.live.defaults.ageLimit false live).once.then
    (changes_raise .ageExpired (.inr awake))
  simp only [State.expire]
  split
  · exact expired
  · exact expired.then (changes_abortEpoch free live)

theorem counting_iff (s : State) :
    s.counting = true ↔
      (s.epoch.state = .opened ∨ s.epoch.state = .doomed) ∧ s.epoch.ageRunning = true ∧ s.control.hold = false := by
  simp [State.counting, and_assoc]

theorem classifiedIf_waits {u : State} {x : HoldReason} (phase : u.host.phase = s.host.phase) :
    (s.host.phase == HostPhase.held x) = true → (∃ x, u.host.phase = .held x) ∨ u.host.phase = .grantWait :=
  fun h => .inl ⟨x, phase.trans (beq_iff_eq.1 h)⟩

theorem changes_reachReady (h : Changes s t.atReady) : Changes s t.reachReady := by
  rw [reachReady_eq]
  refine h.then (changes_classifiedIf _ fun waits => .inl ?_)
  simp only [State.readyFrees, Bool.or_eq_true, beq_iff_eq] at waits
  rcases waits with w | w <;> exact ⟨_, w⟩

theorem changes_reachIdle (h : Changes s t.atIdle) : Changes s t.reachIdle := by
  rw [reachIdle_eq]
  exact h.then (changes_classifiedIf _ (classifiedIf_waits rfl))

/-! ## The completions -/

theorem chooseConfig_judged {a b : Option StoredConfig} {c : Copy} {x : StoredConfig}
    (h : chooseConfig a b = some (c, x)) : a = some x ∨ b = some x := by
  unfold chooseConfig at h
  split at h
  · split at h <;> cases h <;> simp
  · cases h; simp
  · cases h; simp
  · cases h

theorem changes_decideConfig (busy : s.port.op = some op) (kind : op.kind = .configRead .b) (a b : List Word) :
    Changes s ((s.afterOp op).decideConfig a b) := by
  unfold State.decideConfig
  split
  · exact changes_reachReady (Change.configNone op busy kind).once
  next c x chosen =>
    obtain ⟨ws, judged⟩ : ∃ ws, judgeConfig ws = some x := by
      rcases chooseConfig_judged chosen with h | h <;> exact ⟨_, h⟩
    split
    next slots => exact changes_reachReady (Change.configReady op c ws x busy kind judged slots).once
    next slots => exact (Change.configJournal op c ws x busy kind judged slots).once.then (changes_reclassify _)

theorem changes_decideAnchor (busy : s.port.op = some op) (kind : op.kind = .anchorRead .b) (a b : List Word) :
    Changes s ((s.afterOp op).decideAnchor a b) := by
  unfold State.decideAnchor
  split
  · exact changes_reachReady (Change.anchorNone op busy kind).once
  next c x _ => exact (Change.anchorFound op busy kind c x).once

theorem changes_endScan (busy : s.port.op = some op) (kind : op.kind = .scanRead) (n : Nat) :
    Changes s ((s.afterOp op).endScan n) := by
  unfold State.endScan
  split
  · exact changes_reachReady (Change.scanNone op busy kind).once
  next found => exact (Change.scanRun op busy kind n found).once

theorem changes_judgeScan (busy : s.port.op = some op) (kind : op.kind = .scanRead) (ws : List Word) :
    Changes s ((s.afterOp op).judgeScan ws) := by
  unfold State.judgeScan
  split
  · split
    · exact changes_endScan busy kind _
    · exact (Change.scanNext op busy kind).once
  · exact changes_endScan busy kind _

theorem changes_judgeRollback (busy : s.port.op = some op) (kind : op.kind = .rollbackRead) :
    Changes s ((s.afterOp op).judgeRollback (s.wordsRead op)) := by
  unfold State.judgeRollback
  split
  next block words judged => exact (Change.foundRecord op busy kind block words judged).once
  · exact (Change.damagedRecord op busy kind).once

theorem changes_memoryWork (i : Instr) (k : OpKind) (row : i = completionOf k) (h : exec i s = .next t) :
    Changes s t := by
  subst row
  cases k <;> cases h
  case hostRead =>
    split
    next op busy => split; exacts [(Change.hostRead op busy ‹_› _).once, .refl]
    exact .refl
  case queueWrite =>
    split
    next op busy =>
      split
      next kind => exact (Change.queueWrite op busy kind).once.then changes_leaveNotices
      exact .refl
    exact .refl
  case appendRead =>
    split
    next op busy => split; exacts [(Change.appendRead op busy ‹_›).once, .refl]
    exact .refl
  case appendWrite =>
    split
    next op busy =>
      split
      next kind =>
        split
        next back => exact (Change.cancelledAppend op busy kind back).once.then changes_leaveNotices
        next live => exact (Change.appendWrite op busy kind live).once
      exact .refl
    exact .refl
  case rollbackRead =>
    split
    next op busy => split; exacts [changes_judgeRollback busy ‹_›, .refl]
    exact .refl
  case restore =>
    split
    next op busy => split; exacts [(Change.restore op busy ‹_›).once, .refl]
    exact .refl
  case commitAnchor =>
    split
    next op busy => split; exacts [changes_reachIdle (Change.commitAnchor op _ busy ‹_›).once, .refl]
    exact .refl
  case abortAnchor =>
    split
    next op busy => split; exacts [changes_reachIdle (Change.abortAnchor op _ busy ‹_›).once, .refl]
    exact .refl
  case recoveryAnchor =>
    split
    next op busy => split; exacts [changes_reachReady (Change.recovered op _ busy ‹_›).once, .refl]
    exact .refl
  case zeroAnchor =>
    split
    next op busy => split; exacts [(Change.zeroed op busy (.inl ⟨_, ‹_›⟩)).once, .refl]
    exact .refl
  case formatConfig =>
    split
    next op busy => split; exacts [(Change.formatConfig op _ busy ‹_›).once, .refl]
    exact .refl
  case zeroSlot =>
    split
    next op busy => split; exacts [(Change.zeroed op busy (.inr ‹_›)).once, .refl]
    exact .refl
  case formatAnchor =>
    split
    next op busy => split; exacts [(Change.formatAnchor op busy ‹_›).once, .refl]
    exact .refl
  case saveConfig =>
    split
    next op busy => split; exacts [(Change.saved op _ busy ‹_›).once, .refl]
    exact .refl
  case arming =>
    split
    next op busy =>
      split
      exacts [(Change.armed op _ busy ‹_›).once, (Change.discarded op _ busy ‹_›).once, .refl]
    exact .refl
  case configRead =>
    split
    next op busy =>
      split
      exacts [(Change.firstCopy op busy (.inl ‹_›)).once, changes_decideConfig busy ‹_› _ _, .refl]
    exact .refl
  case anchorRead =>
    split
    next op busy =>
      split
      exacts [(Change.firstCopy op busy (.inr ‹_›)).once, changes_decideAnchor busy ‹_› _ _, .refl]
    exact .refl
  case scanRead =>
    split
    next op busy => split; exacts [changes_judgeScan busy ‹_› _, .refl]
    exact .refl

/-! ## Resets, the clearing of the hold flag, and the lines while a reset lasts -/

/-- Whether the part runs under these lines. -/
def Lines.inRange (l : Lines) : Bool := l.supply == .inRange && !l.rstn

/-- The rows that are no chain of changes: the clearing of the hold flag, and those that begin, end or outlast a reset. -/
inductive Turn (s : State) : Instr → State → Prop
  | leaveHold (up : s.running = true) : Turn s .pfwDeassert ({ s with lines.pfw := false } : State).leaveHold
  | beginReset (i : Instr) (l : Lines) (cause : ResetCause) (row : i = .powerOn ∨ i = .powerLoss ∨ i = .rstnAssert)
      (off : Lines.inRange l = false) (presented : l.presented = s.lines.presented) :
      Turn s i (({ s with lines := l } : State).beginReset cause)
  | restart (up : s.running = true) (pending : s.control.restartPending = true) :
      Turn s .chipSelectRise ((({ s with lines.csLow := false } : State).beginReset .command).endReset)
  | endReset (i : Instr) (l : Lines) (down : s.running = false) (on : Lines.inRange l = true)
      (presented : l.presented = s.lines.presented) : Turn s i ({ s with lines := l } : State).endReset
  | line (i : Instr) (l : Lines) (down : s.running = false) (off : Lines.inRange l = false)
      (presented : s.lines.presented ≠ none → l.presented ≠ none) : Turn s i { s with lines := l }

theorem changes_of_commandOf {c : Command} (row : commandOf i = some c) (h : exec i s = .next t) : Changes s t := by
  obtain ⟨args, -, e⟩ := exec_of_commandOf row
  cases (e s).symm.trans h
  exact changes_command row args

/-- What a row can do. -/
theorem exec_cases (h : exec i s = .next t) : Changes s t ∨ Turn s i t := by
  cases i
  case status | begin | commit | abort | renew | readSet | setJournal | format | setRegion | getRegion | setDefaults
      | saveConfig | armMonitor | disarmMonitor | getMonitor | readEvents | clearEvents | setEventEnables | readFault
      | clearFault | restart => exact .inl (changes_of_commandOf rfl h)
  case badCommandFrame code args =>
    cases h
    refine .inl ?_
    split
    next can =>
      have up := (Bool.and_eq_true_iff.1 can).1
      exact changes_settle _ _ up (changes_decideFrame _ _ up)
    · exact .refl
  case managementByteComplete byte =>
    cases h
    refine .inl ?_
    split
    next up => exact changes_frameByte byte up
    · exact .refl
  case chipSelectFall =>
    cases h
    split; · exact .inl .refl
    next high =>
    have high := Bool.eq_false_iff.2 high
    split
    next begins =>
      refine .inl (Change.frame { phase := .code } true begins.1 (fun _ => by simp) (fun _ => Nat.zero_le _)).once
    next other =>
    cases up : s.running
    · exact .inr (.line _ { s.lines with csLow := true } up up id)
    · have moving : s.frame.phase ≠ .idle := fun p => other ⟨up, p⟩
      exact .inl (Change.frame s.frame true up (fun agree => by simp_all) id).once
  case chipSelectRise =>
    cases h
    split; · exact .inl .refl
    split
    next up =>
      simp only [State.endFrame]
      split
      next pending => exact .inr (.restart up pending)
      · exact .inl (Change.frame {} false up (fun _ => by simp) (fun _ => Nat.zero_le _)).once
    next down =>
      have down := Bool.eq_false_iff.2 down
      exact .inr (.line _ { s.lines with csLow := false } down down id)
  case hostWrite | hostRead =>
    cases h
    cases up : s.running
    · simp only [State.present, up]
      split
      · exact .inl .refl
      · exact .inr (.line _ { s.lines with presented := some _, ready := false, error := false, hostData := 0 } up up
          (fun _ => by simp))
    · exact .inl (changes_present _ up)
  case arbiterGrant =>
    cases h
    refine .inl ?_
    split
    next can =>
      split
      next k next => exact (Change.grant k can.1 can.2 next).once
      · exact .refl
    · exact .refl
  case ageTick =>
    cases h
    refine .inl ?_
    split
    next counts =>
      obtain ⟨live, -, free⟩ := (counting_iff s).1 counts
      split
      · exact changes_expire free live
      · exact (Change.age _ s.epoch.ageRunning live).once
    · exact .refl
  case ageExpiry =>
    cases h
    refine .inl ?_
    split
    next expires =>
      obtain ⟨live, -, free⟩ := (counting_iff s).1 expires.1
      exact changes_expire free live
    · exact .refl
  case pfwAssert =>
    cases h
    split; · exact .inl .refl
    cases up : s.running
    · exact .inr (.line _ { s.lines with pfw := true } up up id)
    · exact .inl (changes_enterHold up)
  case pfwDeassert =>
    cases h
    split; · exact .inl .refl
    cases up : s.running
    · exact .inr (.line _ { s.lines with pfw := false } up up id)
    · exact .inr (.leaveHold up)
  case powerOn =>
    cases h
    exact .inr (.beginReset _ { s.lines with supply := .rising } .power (.inl rfl) rfl rfl)
  case powerLoss =>
    cases h
    exact .inr (.beginReset _ { s.lines with supply := .off } s.control.cause (.inr (.inl rfl)) rfl rfl)
  case powerResetEnd =>
    cases h
    split
    next rising =>
      have down : s.running = false := by simp [State.running, rising]
      split
      next low => exact .inr (.line _ { s.lines with supply := .inRange } down (by simp [Lines.inRange, low]) id)
      next high =>
        exact .inr (.endReset _ { s.lines with supply := .inRange } down (by simp [Lines.inRange, high]) rfl)
    · exact .inl .refl
  case rstnAssert =>
    cases h
    split; · exact .inl .refl
    have off : Lines.inRange { s.lines with rstn := true } = false := by simp [Lines.inRange]
    cases up : s.running
    · exact .inr (.line _ { s.lines with rstn := true } up off id)
    · exact .inr (.beginReset _ { s.lines with rstn := true } .line (.inr (.inr rfl)) off rfl)
  case rstnDeassert =>
    cases h
    split; · exact .inl .refl
    next low =>
    have down : s.running = false := by simp [State.running, low]
    split
    next supply => exact .inr (.endReset _ { s.lines with rstn := false } down (by simp [Lines.inRange, supply]) rfl)
    next supply => exact .inr (.line _ { s.lines with rstn := false } down (by simp [Lines.inRange, supply]) id)
  case hostReadComplete => exact .inl (changes_memoryWork _ .hostRead rfl h)
  case queueWordWriteComplete => exact .inl (changes_memoryWork _ .queueWrite rfl h)
  case appendBlockReadComplete => exact .inl (changes_memoryWork _ .appendRead rfl h)
  case appendSlotWriteComplete => exact .inl (changes_memoryWork _ .appendWrite rfl h)
  case rollbackSlotReadComplete => exact .inl (changes_memoryWork _ .rollbackRead rfl h)
  case restoreWriteComplete => exact .inl (changes_memoryWork _ .restore rfl h)
  case commitAnchorWriteComplete => exact .inl (changes_memoryWork _ (.commitAnchor .a) rfl h)
  case abortAnchorWriteComplete => exact .inl (changes_memoryWork _ (.abortAnchor .a) rfl h)
  case zeroAnchorWriteComplete => exact .inl (changes_memoryWork _ (.zeroAnchor .a) rfl h)
  case formatConfigWriteComplete => exact .inl (changes_memoryWork _ (.formatConfig .a) rfl h)
  case zeroSlotWriteComplete => exact .inl (changes_memoryWork _ .zeroSlot rfl h)
  case formatAnchorWriteComplete => exact .inl (changes_memoryWork _ .formatAnchor rfl h)
  case saveConfigWriteComplete => exact .inl (changes_memoryWork _ (.saveConfig .a) rfl h)
  case armingReadComplete => exact .inl (changes_memoryWork _ (.arming 0 true) rfl h)
  case configReadComplete => exact .inl (changes_memoryWork _ (.configRead .a) rfl h)
  case anchorReadComplete => exact .inl (changes_memoryWork _ (.anchorRead .a) rfl h)
  case scanSlotReadComplete => exact .inl (changes_memoryWork _ .scanRead rfl h)
  case recoveryAnchorWriteComplete => exact .inl (changes_memoryWork _ (.recoveryAnchor .a) rfl h)

/-! ## Laws that every step keeps -/

/-- What a law needs to be kept by every step. -/
structure Kept (P : State → Prop) : Prop where
  pending : ∀ s rest, P s → P { s with pending := rest }
  change : ∀ s t, P s → Change s t → P t
  clearHold : ∀ s, P s → P { s with control.hold := false, lines.pfw := false }
  resumeRun : ∀ s, P s → P s.resumeRun
  beginReset : ∀ s l cause, P s → l.presented = s.lines.presented →
    (Lines.inRange l = true → s.running = true ∧ l.csLow = false ∧ l.pfw = s.lines.pfw) → P (({ s with lines := l } : State).beginReset cause)
  endReset : ∀ s l, P s → (s.running = false ∨ s.port.op = none) → Lines.inRange l = true →
    l.presented = s.lines.presented → P ({ s with lines := l } : State).endReset
  line : ∀ s l, P s → s.running = false → Lines.inRange l = false →
    (s.lines.presented ≠ none → l.presented ≠ none) → P { s with lines := l }

theorem Kept.changes {P : State → Prop} (k : Kept P) (start : P s) (h : Changes s t) : P t :=
  h.keep k.change start

/-- The hold flag clear and a request held with POWER classified afresh, before the arbiter acts (R128, R146). -/
def holdCleared (s : State) : State :=
  (({ s with control.hold := false, lines.pfw := false } : State).raise .holdLeft).reclassify .power

theorem leaveHold_eq (s : State) :
    ({ s with lines.pfw := false } : State).leaveHold = (holdCleared s).clearGrant.resumeRun := rfl

theorem changes_holdCleared (up : s.running = true) : Changes { s with control.hold := false, lines.pfw := false } (holdCleared s) :=
  (changes_raise .holdLeft (.inl (by exact up))).then (changes_reclassify .power)

/-- The clearing of the hold flag, part by part (R128, R146, R148, log 29). -/
theorem Kept.leaveHold {P : State → Prop} (k : Kept P) (start : P s) (up : s.running = true) :
    P ({ s with lines.pfw := false } : State).leaveHold := by
  have cleared : P (holdCleared s) := k.changes (k.clearHold s start) (changes_holdCleared up)
  have running : (holdCleared s).running = true := (changes_holdCleared up).running.trans up
  rw [leaveHold_eq]
  refine k.resumeRun _ ?_
  rcases clearGrant_cases (holdCleared s) with same | ⟨free, -, choice, next, granted⟩
  · rw [same]; exact cleared
  · have counted := k.change _ _ cleared .countFree
    rw [granted]
    split
    · exact k.change _ _ counted (.grant choice running free next)
    · exact counted

theorem beginReset_running (s : State) (cause : ResetCause) : (s.beginReset cause).running = s.running := by
  obtain ⟨m, n, -, cut⟩ := cutOperation_cases s
  rw [State.beginReset, cut]
  rfl

/-- A row keeps the law. -/
theorem Kept.exec {P : State → Prop} (k : Kept P) (start : P s) (h : exec i s = .next t) : P t := by
  rcases exec_cases h with changes | turn
  · exact k.changes start changes
  cases turn with
  | leaveHold up => exact k.leaveHold start up
  | beginReset i l cause row off presented =>
    exact k.beginReset s l cause start presented (fun on => absurd on (by simp [off]))
  | restart up pending =>
    exact k.endReset _ _ (k.beginReset s { s.lines with csLow := false } .command start rfl (fun _ => ⟨up, rfl, rfl⟩))
      (.inr rfl) ((beginReset_running _ .command).trans up) rfl
  | endReset i l down on presented => exact k.endReset s l start (.inl down) on presented
  | line i l down off presented => exact k.line s l start down off presented

/-- A step keeps the law: on an empty queue the bit count of a frame in course alone moves (R170, log 16). -/
theorem Kept.step {P : State → Prop} (k : Kept P) (s t : State) (start : P s) (h : step s = .next t) : P t := by
  unfold Machine.step at h
  split at h
  · cases h
    unfold State.clockPulse
    split
    next counts =>
      exact k.change _ _ start (.frame { s.frame with bits := s.frame.bits + 1 } s.lines.csLow counts.1 id (fun _ => counts.2.2))
    · exact start
  next c rest _ => exact k.exec (k.pending s rest start) h

end Sys2Proof.Proofs
end

section
-- One declaration at a time: each thread that waits for another reserves memory of the check.
set_option Elab.async false
/-! The lines and the reset (R134, R146, R170), the canonical memory and the capacities (R25, R110, R122, R167). -/

namespace Sys2Proof.Proofs
open Sys2Proof.Machine Sys2Proof.Laws

variable {s t : State}

/-! ## Resets -/

/-- Every block at its reset value, as a reset that begins leaves it. -/
theorem beginReset_blocks (s : State) (cause : ResetCause) :
    ∃ m n, s.beginReset cause = State.resetBlocks { s with mem := m, freeCount := n } cause := by
  obtain ⟨m, n, -, cut⟩ := cutOperation_cases s
  exact ⟨m, n, by rw [State.beginReset, cut]⟩

/-! ## The lines -/

theorem kept_linesLaw : Kept State.linesLaw where
  pending _ _ law := law
  change s t law step up := by
    obtain ⟨-, run, hold, frame⟩ := step.outside
    obtain ⟨h, f⟩ := law (run.symm.trans up)
    exact ⟨hold h, frame f⟩
  clearHold s law up := ⟨rfl, (law up).2⟩
  resumeRun s law := by rw [resumeRun_changes]; exact law
  beginReset s l cause law presented on up := by
    obtain ⟨m, n, reset⟩ := beginReset_blocks { s with lines := l } cause
    rw [reset] at up ⊢
    obtain ⟨ran, high, pfw⟩ := on up
    exact ⟨(law ran).1.trans pfw.symm, by simp [high]⟩
  endReset s l law free on presented up := by
    obtain ⟨-, -, pfw, cs⟩ := (classified
      { s with lines := l, control.hold := l.pfw, frame.phase := if l.csLow then .waitRise else .idle }).drives
    unfold State.endReset
    rw [classify_control, classify_frame, pfw, cs]
    exact ⟨rfl, by cases l.csLow <;> simp⟩
  line s l law down off presented up := absurd (off.symm.trans up) (by decide)

/-! ## The reset values while a reset lasts -/

/-- A part in reset has nothing under way that a change could take up. -/
theorem held_nothing (law : s.heldInReset) (down : s.running = false) :
    s.port.op = none ∧ s.epoch.state = .idle ∧ s.control.device = .starting ∧ s.host.phase = .idle ∧
      s.rollback.phase = .idle ∧ s.draining = false := by
  obtain ⟨epoch, -, journal, rollback, -, host, port, -, -, -, control⟩ := law down
  rw [epoch, rollback, host, port, control, State.draining, journal]
  exact ⟨rfl, rfl, rfl, rfl, rfl, rfl⟩

theorem heldInReset_resetBlocks (s : State) (cause : ResetCause) : (s.resetBlocks cause).heldInReset :=
  fun _ => ⟨rfl, rfl, rfl, rfl, rfl, rfl, rfl, rfl, rfl, rfl, rfl⟩

theorem kept_heldInReset : Kept State.heldInReset where
  pending _ _ law := law
  change s t law step := by
    cases up : s.running
    case true => exact fun down => absurd (step.outside.2.1.symm.trans down) (by simp [up])
    obtain ⟨op, idle, device, phase, run, drain⟩ := held_nothing law up
    cases step with
    | countFree => exact law
    | hold =>
      intro _
      obtain ⟨epoch, set, journal, rollback, regions, host, port, monitors, events, frame, control⟩ := law up
      refine ⟨epoch, set, journal, rollback, regions, host, port, monitors, events, frame, ?_⟩
      simp only
      rw [control]
    | pauseRun =>
      have same : s.pauseRun = s := by unfold State.pauseRun; rw [run]
      rw [same]; exact law
    | _ => simp_all
  clearHold s law down := by
    obtain ⟨epoch, set, journal, rollback, regions, host, port, monitors, events, frame, control⟩ := law down
    refine ⟨epoch, set, journal, rollback, regions, host, port, monitors, events, frame, ?_⟩
    simp only
    rw [control]
  resumeRun s law := by
    cases up : s.running
    · have same : s.resumeRun = s := resumeRun_running (by simp [(held_nothing law up).2.2.2.2.1])
      rw [same]; exact law
    · intro down
      rw [resumeRun_changes] at down
      exact absurd (up.symm.trans down) (by decide)
  beginReset _ _ cause _ _ _ := heldInReset_resetBlocks _ cause
  endReset s l law free on presented down :=
    absurd ((running_classify _).symm.trans down) (by simpa [State.running, Lines.inRange] using on)
  line s l law down off presented := fun _ => law down

end Sys2Proof.Proofs

namespace Sys2Proof.Proofs
open Sys2Proof.Machine Sys2Proof.Laws

/-- Settles O60: the lines move together in every change, and a part in reset takes up none. -/
theorem stepsKeepTheLinesAndTheReset : Obligations.StepsKeepTheLinesAndTheReset :=
  fun s t lines held h => ⟨kept_linesLaw.step s t lines h, kept_heldInReset.step s t held h⟩

end Sys2Proof.Proofs

namespace Sys2Proof.Proofs
open Sys2Proof.Machine Sys2Proof.Laws

variable {s t : State}

/-! ## The canonical memory -/

/-- A law of the memory alone is kept by a classification. -/
theorem kept_memoryWf : Kept State.memoryWf where
  pending _ _ law := law
  change s t law step := by
    have words : ∀ op, Memory.wf (s.afterOp op).mem := fun op => memoryWf_afterOp s op law
    have classify : ∀ u : State, u.memoryWf → u.classify.memoryWf := fun u h =>
      (congrArg Memory.wf (classify_mem u)).mpr h
    have finish : ∀ u : State, u.memoryWf → u.finishRecord.memoryWf := fun u h => by rw [finishRecord_changes]; exact h
    have advance : ∀ u : State, u.memoryWf → u.advanceFormat.memoryWf := fun u h => by rw [advanceFormat_changes]; exact h
    cases step with
    | present => exact classify _ law
    | classify => exact classify s law
    | grant => rw [grant_changes]; exact law
    | pauseRun => rw [pauseRun_changes]; exact law
    | abort => rw [startAbortRun_changes]; exact law
    | editDescriptor => rw [storeTable_changes]; exact law
    | editDefaults => rw [storeTable_changes]; exact law
    | disarm => rw [disarm_changes]; exact law
    | appendWrite op => rw [headProgress_changes]; exact words op
    | cancelledAppend op => rw [startAbortRun_changes]; exact words op
    | damagedRecord op => exact finish _ (words op)
    | restore op => exact finish _ (words op)
    | zeroed op => exact advance _ (words op)
    | formatConfig op => exact advance _ (words op)
    | hostRead op | queueWrite op | appendRead op | foundRecord op | commitAnchor op | abortAnchor op | formatAnchor op
    | saved op | armed op | discarded op | firstCopy op | configNone op | configReady op | configJournal op
    | anchorNone op | anchorFound op | scanNext op | scanNone op | scanRun op | recovered op => exact words op
    | _ => exact law
  clearHold _ law := law
  resumeRun s law := by rw [resumeRun_changes]; exact law
  beginReset s l cause law presented on := memoryWf_cutOperation { s with lines := l } law
  endReset s l law free on presented := (congrArg Memory.wf (classify_mem _)).mpr law
  line s l law down off presented := law

/-! ## The capacities -/

/-- A queue that grows by one entry where it has room keeps its capacity. -/
theorem Classified.bounded (h : Classified s t) (law : s.bounded) : t.bounded := by
  obtain ⟨queue, set, blocks, refusals, counts, bits⟩ := law
  have offer : ∀ (e : Events) (r : FaultRecord), (e.offer r).refusals ≤ 255 := fun e r => Nat.min_le_left _ _
  cases h with
  | nothing | held | waits | completed => exact ⟨queue, set, blocks, refusals, counts, bits⟩
  | refused | doomed => exact ⟨queue, set, blocks, offer _ _, counts, bits⟩
  | plain r x cls width policy free loaded room place =>
    exact ⟨by simp [joined]; omega, set, blocks, refusals, counts, bits⟩
  | hit r x cls width policy free loaded room place =>
    exact ⟨by simp [joined]; omega, set, blocks, refusals, counts, bits⟩
  | claimed r x cls width policy free loaded room place live apart left =>
    have new : ∀ e ∈ s.loggedSet, e.block ≠ blockOf r.addr := by
      simpa [State.covered] using apart
    have full : (s.reserve (blockOf r.addr) s.epoch.reserved).host.queue = s.host.queue := by rw [reserve_changes]
    refine ⟨by simp [joined, full]; omega, ?_⟩
    unfold State.reserve
    split
    next spare =>
      refine ⟨by simp only [joined, completeHost_loggedSet, List.length_append]; exact spare, ?_, refusals, counts, bits⟩
      simp [joined, List.nodup_append, blocks]
      exact new
    · exact ⟨set, blocks, refusals, counts, bits⟩

theorem cancelQueue_sublist (serial : Serial) (q : List QueueEntry) : (cancelQueue serial q).Sublist q := by
  cases q with
  | nil => exact .refl _
  | cons head rest =>
    simp only [cancelQueue]
    split
    · exact List.filter_sublist.cons head
    · exact List.filter_sublist.cons_cons head

theorem markLogged_blocks (q : Option Nat) (set : List SetEntry) :
    (markLogged q set).map (fun e => e.block) = set.map (fun e => e.block) := by
  unfold markLogged
  rw [List.map_map]
  refine List.map_congr_left fun e _ => ?_
  simp only [Function.comp]
  split <;> rfl

theorem markLogged_length (q : Option Nat) (set : List SetEntry) : (markLogged q set).length = set.length :=
  List.length_map _

theorem headProgress_length (s : State) (p : Progress) : (s.headProgress p).host.queue.length = s.host.queue.length := by
  unfold State.headProgress
  split
  next e => simp [e]
  · rfl

theorem evaluate_count (c : Cell) (a : WordAddr) (ws : List Word) (l : Lanes) (x : Source) (h : c.count ≤ 15) :
    (c.evaluate a ws l x).count ≤ 15 := by
  unfold Cell.evaluate
  split
  · split
    · split
      · exact Nat.min_le_left _ _
      · exact h
    · exact h
  · exact h

theorem finishRecord_bounded (h : s.bounded) : s.finishRecord.bounded := by rw [finishRecord_changes]; exact h

theorem advanceFormat_bounded (h : s.bounded) : s.advanceFormat.bounded := by rw [advanceFormat_changes]; exact h

theorem startAbortRun_bounded (h : s.bounded) : s.startAbortRun.bounded := by rw [startAbortRun_changes]; exact h

/-- A write shown raises flags and counts up to 15, nothing else of the capacities. -/
theorem showWrite_bounded (a : WordAddr) (ws : List Word) (l : Lanes) (x : Source) (h : s.bounded) :
    (s.showWrite a ws l x).bounded := by
  obtain ⟨queue, set, blocks, refusals, counts, bits⟩ := h
  refine ⟨queue, set, blocks, ?_, fun i => ?_, bits⟩
  · rw [showWrite_changes]; exact refusals
  · rw [showWrite_monitor]; exact evaluate_count _ _ _ _ _ (counts i)

/-- A queue that shrinks, with the rest of the capacities as they were. -/
theorem bounded_of_queue (q : List QueueEntry) (le : q.length ≤ s.host.queue.length) (h : s.bounded) :
    ({ s with host.queue := q } : State).bounded :=
  ⟨Nat.le_trans le h.1, h.2⟩

/-- Cells whose counts do not rise keep the capacities. -/
theorem bounded_of_monitors (m : Vector Cell 8) (le : ∀ i : Fin 8, m[i].count ≤ 15) (h : s.bounded) :
    ({ s with monitors := m } : State).bounded :=
  ⟨h.1, h.2.1, h.2.2.1, h.2.2.2.1, le, h.2.2.2.2.2⟩

theorem count_set (m : Vector Cell 8) (j : Fin 8) (c : Cell) (new : c.count ≤ 15) (old : ∀ i : Fin 8, m[i].count ≤ 15)
    (i : Fin 8) : (m.set j c)[i].count ≤ 15 := by
  simp only [Fin.getElem_fin, Vector.getElem_set]
  split
  · exact new
  · exact old i

theorem reportRecord_bounded (h : s.bounded) : s.reportRecord.bounded := by
  obtain ⟨queue, set, blocks, rest⟩ := h
  exact ⟨queue, (markLogged_length _ _).trans_le set, (congrArg List.Nodup (markLogged_blocks _ _)).mpr blocks, rest⟩

theorem headProgress_bounded (p : Progress) (h : s.bounded) : (s.headProgress p).bounded := by
  rw [headProgress_changes]
  exact bounded_of_queue _ (headProgress_length s p).le h

/-- The capacities of a part whose blocks are reset. -/
theorem bounded_resetBlocks (s : State) (cause : ResetCause) : (s.resetBlocks cause).bounded :=
  ⟨by simp, by simp, by simp, by simp, by simp, by simp⟩

theorem kept_bounded : Kept State.bounded where
  pending _ _ law := law
  change s t law step := by
    have after : ∀ op, (s.afterOp op).bounded := fun op => law
    cases step with
    | frame f cs up agree bits =>
      obtain ⟨queue, set, blocks, refusals, counts, bits'⟩ := law
      exact ⟨queue, set, blocks, refusals, counts, bits bits'⟩
    | present => exact (classified _).bounded law
    | classify => exact (classified s).bounded law
    | grant k =>
      rw [grant_changes]
      refine bounded_of_queue (s := s) _ (le_of_eq ?_) law
      cases k <;> simp only [State.grant, State.ownerGranted, headProgress_length]
      split <;> rfl
    | events e awake bound =>
      obtain ⟨queue, set, blocks, refusals, rest⟩ := law
      exact ⟨queue, set, blocks, bound refusals, rest⟩
    | pauseRun => rw [pauseRun_changes]; exact law
    | abort =>
      exact startAbortRun_bounded (bounded_of_queue (s := s) _ (cancelQueue_sublist _ _).length_le law)
    | editDescriptor => rw [storeTable_changes]; exact law
    | editDefaults => rw [storeTable_changes]; exact law
    | switchFormat =>
      refine bounded_of_monitors _ (fun i => ?_) law
      change (formatSwitched s).monitors[i].count ≤ 15
      rw [formatSwitched_monitor]
      split <;> exact law.2.2.2.2.1 i
    | arm i => exact bounded_of_monitors _ (count_set _ i _ (Nat.zero_le _) law.2.2.2.2.1) law
    | disarm i =>
      rw [disarm_changes]
      exact bounded_of_monitors (s := s) _ (count_set _ i _ (law.2.2.2.2.1 i) law.2.2.2.2.1) law
    | queueWrite op =>
      exact bounded_of_queue _ (by simp) (showWrite_bounded op.start op.writes op.lanes .host (after op))
    | appendWrite op => exact headProgress_bounded _ (reportRecord_bounded (after op))
    | cancelledAppend op =>
      exact startAbortRun_bounded (bounded_of_queue _ (by simp) (reportRecord_bounded (after op)))
    | damagedRecord op => exact finishRecord_bounded (after op)
    | restore op => exact finishRecord_bounded (showWrite_bounded _ _ _ _ (after op))
    | commitAnchor | abortAnchor =>
      obtain ⟨queue, -, -, rest⟩ := law
      exact ⟨queue, Nat.zero_le _, List.nodup_nil, rest⟩
    | zeroed op => exact advanceFormat_bounded (after op)
    | formatConfig op => exact advanceFormat_bounded (after op)
    | armed op i => exact bounded_of_monitors _ (count_set _ i _ (law.2.2.2.2.1 i) law.2.2.2.2.1) (after op)
    | _ => exact law
  clearHold _ law := law
  resumeRun s law := by rw [resumeRun_changes]; exact law
  beginReset _ _ cause _ _ _ := bounded_resetBlocks _ cause
  endReset s l law free on presented := (classified _).bounded law
  line _ _ law _ _ _ := law

/-- Settles O55: each change grows a queue or a count only where it has room. -/
theorem stepsKeepTheMemoryAndCapacities : Obligations.StepsKeepTheMemoryAndCapacities :=
  ⟨kept_memoryWf.step, kept_bounded.step⟩

end Sys2Proof.Proofs
end

section
-- One declaration at a time: each thread that waits for another reserves memory of the check.
set_option Elab.async false
/-! What the port is asked, said once (R124 to R127), the order of start-up (section 8.3), the serial of IDLE (R2, R53) and
the law of the regions (R82). -/

namespace Sys2Proof.Proofs
open Sys2Proof.Machine Sys2Proof.Laws

variable {s t : State} {k : OpKind} {op : Operation}

/-! ## Requests -/

/-- What the owner of a request that waits holds (R124). -/
inductive Asked (s : State) : OpKind → Prop
  | hostRead (waits : s.host.phase = .grantWait) : Asked s .hostRead
  | appendRead (head : QueueEntry) (rest : List QueueEntry) (queue : s.host.queue = head :: rest)
      (progress : head.progress = .appendWaiting) : Asked s .appendRead
  | appendWrite (head : QueueEntry) (rest : List QueueEntry) (queue : s.host.queue = head :: rest)
      (progress : head.progress = .appendInFlight) (preimage : List Word) (kept : s.journal.preimage = some preimage) :
      Asked s .appendWrite
  | queueWrite (head : QueueEntry) (rest : List QueueEntry) (queue : s.host.queue = head :: rest)
      (progress : head.progress = .writeWaiting) : Asked s .queueWrite
  | saveConfig (saving : s.regions.saving = true) : Asked s (.saveConfig (copyNotInForce s.regions.inForce))
  | rollbackRead (phase : s.rollback.phase = .read) : Asked s .rollbackRead
  | restore (block : Nat) (words : List Word) (phase : s.rollback.phase = .restore block words) : Asked s .restore
  | abortAnchor (phase : s.rollback.phase = .close) : Asked s (.abortAnchor (copyNotInForce s.journal.inForce))
  | commitAnchor (drained : s.drained = true) : Asked s (.commitAnchor (copyNotInForce s.journal.inForce))
  | zeroFirst (job : FormatJob) (format : s.journal.format = some job) (step : job.step = .zeroFirst) :
      Asked s (.zeroAnchor (copyNotInForce s.journal.inForce))
  | zeroSecond (job : FormatJob) (format : s.journal.format = some job) (step : job.step = .zeroSecond) :
      Asked s (.zeroAnchor (copyNotInForce s.journal.inForce).other)
  | formatConfig (job : FormatJob) (format : s.journal.format = some job) (step : job.step = .config) :
      Asked s (.formatConfig (copyNotInForce s.regions.inForce))
  | zeroSlot (job : FormatJob) (next : Nat) (format : s.journal.format = some job) (step : job.step = .slots next) :
      Asked s .zeroSlot
  | formatAnchor (job : FormatJob) (format : s.journal.format = some job) (step : job.step = .anchor) :
      Asked s .formatAnchor
  | configRead (c : Copy) (step : s.control.step = .configRead) : Asked s (.configRead c)
  | anchorRead (c : Copy) (step : s.control.step = .anchorRead) : Asked s (.anchorRead c)
  | scanRead (step : s.control.step = .scan) : Asked s .scanRead
  | recoveryAnchor (step : s.control.step = .anchorWrite) :
      Asked s (.recoveryAnchor (copyNotInForce s.journal.inForce))
  | arming (i : Fin 8) (state : s.monitors[i].state = .arming) : Asked s (.arming i true)

theorem asked_hr (h : s.hrWaiting = some k) : Asked s k := by
  unfold State.hrWaiting at h
  split at h <;> cases h
  next waits => exact .hostRead waits

theorem asked_wp (h : s.wpWaiting = some k) : Asked s k := by
  unfold State.wpWaiting at h
  split at h
  · cases h
  next head rest queue =>
    split at h
    next progress => cases h; exact .appendRead head rest queue progress
    next progress =>
      split at h <;> cases h
      next kept =>
        obtain ⟨preimage, kept⟩ := Option.isSome_iff_exists.1 kept
        exact .appendWrite head rest queue progress preimage kept
    next progress => cases h; exact .queueWrite head rest queue progress
    · cases h

theorem asked_save (h : s.saveWaiting = some k) : Asked s k := by
  unfold State.saveWaiting at h
  split at h <;> cases h
  next saving => exact .saveConfig saving

theorem asked_journal (h : s.journalWaiting = some k) : Asked s k := by
  have other : (if s.drained then some (.commitAnchor (copyNotInForce s.journal.inForce))
      else match s.journal.format with
        | some job => s.formatWaiting job.step
        | none => s.startWaiting) = some k → Asked s k := by
    intro h
    split at h
    next drained => cases h; exact .commitAnchor drained
    split at h
    next job format =>
      unfold State.formatWaiting at h
      split at h <;> cases h
      next step => exact .zeroFirst job format step
      next step => exact .zeroSecond job format step
      next step => exact .formatConfig job format step
      next step => exact .zeroSlot job _ format step
      next step => exact .formatAnchor job format step
    · unfold State.startWaiting at h
      split at h <;> cases h
      next step => exact .configRead _ step
      next step => exact .anchorRead _ step
      next step => exact .scanRead step
      next step => exact .recoveryAnchor step
  unfold State.journalWaiting at h
  split at h
  next phase => cases h; exact .rollbackRead phase
  next phase => cases h; exact .restore _ _ phase
  next phase => cases h; exact .abortAnchor phase
  · exact other h
  · exact other h

theorem asked_ma (h : s.maWaiting = some k) : Asked s k := by
  unfold State.maWaiting at h
  obtain ⟨i, found, rfl⟩ := Option.map_eq_some_iff.1 h
  exact .arming i (by simpa using List.find?_some found)

/-- The port grants only what its owner asks. -/
theorem asked (h : s.nextGrant = some k) : Asked s k := by
  have device : s.deviceWaiting = some k → Asked s k := by
    intro h
    simp only [State.deviceWaiting, Option.or_eq_some_iff] at h
    rcases h with ((h | ⟨-, h⟩) | ⟨-, h⟩) | ⟨-, h⟩
    exacts [asked_wp h, asked_save h, asked_journal h, asked_ma h]
  unfold State.nextGrant at h
  split at h
  · rcases Option.or_eq_some_iff.1 h with h | ⟨-, h⟩
    · exact asked_wp h
    · exact asked_journal (Option.filter_eq_some_iff.1 h).1
  · split at h <;> rcases Option.or_eq_some_iff.1 h with h | ⟨-, h⟩
    exacts [asked_hr h, device h, device h, asked_hr h]

/-- The operation granted is of the kind asked. -/
@[simp] theorem operationFor_kind (s : State) (k : OpKind) : (s.operationFor k).kind = k := by
  cases k <;> first | rfl | (simp only [State.operationFor, State.headOp]; split <;> rfl)

@[simp] theorem grant_port (s : State) (k : OpKind) :
    (s.grant k).port = { op := some (s.operationFor k), alternation := k.group.side } := by rw [grant_changes]

/-! ## The operation in progress -/

/-- No operation begins, and one in progress stays, but that an arming read may lose its cell (R121, R154). -/
def KeepsOp (s t : State) : Prop :=
  ∀ op, t.port.op = some op →
    s.port.op = some op ∨
      ∃ i op', s.port.op = some op' ∧ op'.kind = .arming i true ∧ op = { op' with kind := .arming i false }

theorem keepsOp_of_eq (h : t.port.op = s.port.op) : KeepsOp s t := fun _ busy => .inl (h.symm.trans busy)

theorem keepsOp_of_none (h : t.port.op = none) : KeepsOp s t := fun _ busy => nomatch h.symm.trans busy

theorem keepsOp_disarm (i : Fin 8) : KeepsOp s (s.disarm i) := by
  intro op busy
  have busy : (s.discardArming i).port.op = some op := by
    have same : (s.disarm i).port = (s.discardArming i).port := by
      simp only [State.disarm, State.discardArming]
      cases s.port.op with
      | none => rfl
      | some op => simp only; split <;> rfl
    rw [← same]; exact busy
  unfold State.discardArming at busy
  split at busy
  next op' was =>
    split at busy
    next kind => exact .inr ⟨i, op', was, kind, (Option.some.inj busy).symm⟩
    · exact .inl busy
  · exact .inl busy

theorem keepsOp_formatSwitched : KeepsOp s (formatSwitched s) := by
  intro op busy
  obtain ⟨op', was, now⟩ := Option.map_eq_some_iff.1 (show (s.port.op.map _) = some op from busy)
  unfold State.discardJournalArming at now
  split at now
  next i kind =>
    split at now
    · exact .inr ⟨i, op', was, kind, now.symm⟩
    · exact .inl (now ▸ was)
  · exact .inl (now ▸ was)

/-- The kind of an operation in progress is one that was, or that of an arming read without its cell. -/
theorem KeepsOp.kind (keeps : KeepsOp s t) (busy : t.port.op = some op) :
    (∃ op', s.port.op = some op' ∧ op'.kind = op.kind) ∨ ∃ i, op.kind = .arming i false := by
  rcases keeps op busy with was | ⟨i, op', was, kind, rfl⟩
  · exact .inl ⟨op, was, rfl⟩
  · exact .inr ⟨i, rfl⟩

/-- Every change but a grant begins no operation. -/
theorem Change.keepsOp (step : Change s t) : KeepsOp s t ∨ ∃ k, t = s.grant k ∧ s.port.op = none ∧ s.nextGrant = some k := by
  cases step with
  | grant k up free next => exact .inr ⟨k, rfl, free, next⟩
  | present => exact .inl (keepsOp_of_eq (congrArg Port.op (classify_port _)))
  | classify => exact .inl (keepsOp_of_eq (congrArg Port.op (classify_port s)))
  | pauseRun => rw [pauseRun_changes]; exact .inl (keepsOp_of_eq rfl)
  | abort => rw [startAbortRun_changes]; exact .inl (keepsOp_of_eq rfl)
  | editDescriptor => rw [storeTable_changes]; exact .inl (keepsOp_of_eq rfl)
  | editDefaults => rw [storeTable_changes]; exact .inl (keepsOp_of_eq rfl)
  | switchFormat => exact .inl keepsOp_formatSwitched
  | disarm i => exact .inl (keepsOp_disarm i)
  | appendWrite => rw [headProgress_changes]; exact .inl (keepsOp_of_none rfl)
  | cancelledAppend => rw [startAbortRun_changes]; exact .inl (keepsOp_of_none rfl)
  | damagedRecord => unfold State.damagedRecord; rw [finishRecord_changes]; exact .inl (keepsOp_of_none rfl)
  | restore => rw [finishRecord_changes]; exact .inl (keepsOp_of_none rfl)
  | zeroed => rw [advanceFormat_changes]; exact .inl (keepsOp_of_none rfl)
  | formatConfig => rw [advanceFormat_changes]; exact .inl (keepsOp_of_none rfl)
  | hostRead | queueWrite | appendRead | foundRecord | commitAnchor | abortAnchor | formatAnchor
    | saved | armed | discarded | firstCopy | configNone | configReady | configJournal
    | anchorNone | anchorFound | scanNext | scanNone | scanRun | recovered => exact .inl (keepsOp_of_none rfl)
  | _ => exact .inl (keepsOp_of_eq rfl)

/-! ## The order of start-up -/

/-- The parts of the order of start-up that no operation in progress is part of. -/
def startSteps (s : State) : Prop :=
  (s.control.device = .starting ↔ s.control.step = .configRead) ∧
    (s.control.device = .ready ↔ s.control.step = .done) ∧ (s.rollback.run = .recovery → s.control.step = .rollback)

/-- The part of the order of start-up that a kind of operation in progress has. -/
def startKind (s : State) (k : OpKind) : Prop :=
  (∀ c, k = .configRead c → s.control.step = .configRead) ∧ (∀ c, k = .anchorRead c → s.control.step = .anchorRead) ∧
    (k = .scanRead → s.control.step = .scan) ∧ ∀ c, k = .recoveryAnchor c → s.control.step = .anchorWrite

theorem startOrder_iff : s.startOrder ↔ startSteps s ∧ ∀ op, s.port.op = some op → startKind s op.kind :=
  ⟨fun ⟨a, b, c, d⟩ => ⟨⟨a, b, c⟩, d⟩, fun ⟨⟨a, b, c⟩, d⟩ => ⟨a, b, c, d⟩⟩

theorem startKind_of_asked (h : Asked s k) : startKind s k := by
  cases h <;> simp_all [startKind]

theorem startSteps_finishRecord (h : startSteps s) : startSteps s.finishRecord := by
  obtain ⟨starting, ready, recovery⟩ := h
  unfold State.finishRecord
  split
  · split
    next run =>
      have step := recovery run
      exact ⟨by simp_all, by simp_all, by simp⟩
    · exact ⟨starting, ready, recovery⟩
    · exact ⟨starting, ready, recovery⟩
  · exact ⟨starting, ready, recovery⟩

theorem startSteps_startAbortRun (h : startSteps s) : startSteps s.startAbortRun := by
  unfold State.startAbortRun
  split
  · exact ⟨h.1, h.2.1, nofun⟩
  · exact h

theorem startSteps_change (law : s.startOrder) (step : Change s t) : startSteps t := by
  obtain ⟨steps, kinds⟩ := startOrder_iff.1 law
  have run : ∀ {op}, s.port.op = some op → s.control.step ≠ .rollback → s.rollback.run ≠ .recovery :=
    fun _ other recovery => other (steps.2.2 recovery)
  cases step with
  | present | classify => unfold startSteps; rw [classify_control, classify_rollback]; exact steps
  | grant => rw [grant_changes]; exact steps
  | pauseRun => rw [pauseRun_changes]; exact steps
  | abort => exact startSteps_startAbortRun steps
  | editDescriptor => rw [storeTable_changes]; exact steps
  | editDefaults => rw [storeTable_changes]; exact steps
  | disarm => rw [disarm_changes]; exact steps
  | appendWrite => rw [headProgress_changes]; exact steps
  | cancelledAppend => exact startSteps_startAbortRun steps
  | damagedRecord => exact startSteps_finishRecord steps
  | restore => exact startSteps_finishRecord steps
  | zeroed => rw [advanceFormat_changes]; exact steps
  | formatConfig => rw [advanceFormat_changes]; exact steps
  | abortAnchor => exact ⟨steps.1, steps.2.1, nofun⟩
  | configNone op busy kind | configReady op c ws x busy kind =>
    have reading := (kinds op busy).1 _ kind
    exact ⟨by simp [State.atReady], by simp [State.atReady], fun r => absurd r (run busy (by simp [reading]))⟩
  | configJournal op c ws x busy kind =>
    have reading := (kinds op busy).1 _ kind
    exact ⟨by simp [recovering], by simp [recovering], fun r => absurd r (run busy (by simp [reading]))⟩
  | anchorNone op busy kind =>
    have reading := (kinds op busy).2.1 _ kind
    exact ⟨by simp [State.atReady], by simp [State.atReady], fun r => absurd r (run busy (by simp [reading]))⟩
  | anchorFound op busy kind =>
    have reading := (kinds op busy).2.1 _ kind
    refine ⟨?_, ?_, fun r => absurd r (run busy (by simp [reading]))⟩
    · simpa [reading] using steps.1
    · simpa [reading] using steps.2.1
  | scanNone op busy kind =>
    have reading := (kinds op busy).2.2.1 kind
    exact ⟨by simp [State.atReady], by simp [State.atReady], fun r => absurd r (run busy (by simp [reading]))⟩
  | scanRun op busy kind n =>
    have reading := (kinds op busy).2.2.1 kind
    refine ⟨?_, ?_, fun _ => rfl⟩
    · simpa [reading, State.startRecoveryRun] using steps.1
    · simpa [reading, State.startRecoveryRun] using steps.2.1
  | recovered op c busy kind =>
    have writing := (kinds op busy).2.2.2 _ kind
    exact ⟨by simp [State.atReady], by simp [State.atReady], fun r => absurd r (run busy (by simp [writing]))⟩
  | _ => exact steps

/-- Only the completion of an operation moves the device state and the start-up step. -/
theorem control_of_busy (step : Change s t) (busy : t.port.op ≠ none) :
    t.control.device = s.control.device ∧ t.control.step = s.control.step := by
  cases step with
  | present | classify => rw [classify_control]; exact ⟨rfl, rfl⟩
  | grant => rw [grant_changes]; exact ⟨rfl, rfl⟩
  | pauseRun => rw [pauseRun_changes]; exact ⟨rfl, rfl⟩
  | abort => rw [startAbortRun_changes]; exact ⟨rfl, rfl⟩
  | editDescriptor => rw [storeTable_changes]; exact ⟨rfl, rfl⟩
  | editDefaults => rw [storeTable_changes]; exact ⟨rfl, rfl⟩
  | disarm => rw [disarm_changes]; exact ⟨rfl, rfl⟩
  | appendWrite => rw [headProgress_changes]; exact ⟨rfl, rfl⟩
  | cancelledAppend => rw [startAbortRun_changes]; exact ⟨rfl, rfl⟩
  | damagedRecord => exact absurd (by unfold State.damagedRecord; rw [finishRecord_changes]; rfl) busy
  | restore => exact absurd (by rw [finishRecord_changes]; rfl) busy
  | zeroed => rw [advanceFormat_changes]; exact ⟨rfl, rfl⟩
  | formatConfig => rw [advanceFormat_changes]; exact ⟨rfl, rfl⟩
  | configNone | configReady | configJournal | anchorNone | anchorFound | scanNone | scanRun | recovered =>
    exact absurd rfl busy
  | _ => exact ⟨rfl, rfl⟩

theorem startKind_congr (step : t.control.step = s.control.step) (h : startKind s k) : startKind t k := by
  unfold startKind
  rw [step]
  exact h

theorem startOrder_change (law : s.startOrder) (step : Change s t) : t.startOrder := by
  obtain ⟨steps, kinds⟩ := startOrder_iff.1 law
  refine startOrder_iff.2 ⟨startSteps_change law step, fun op busy => ?_⟩
  have same := (control_of_busy step (by simp [busy])).2
  rcases step.keepsOp with keeps | ⟨k, rfl, free, next⟩
  · rcases keeps.kind busy with ⟨op', was, kind⟩ | ⟨i, kind⟩
    · exact startKind_congr same (kind ▸ kinds op' was)
    · simp [startKind, kind]
  · rw [grant_port] at busy
    cases busy
    rw [operationFor_kind]
    exact startKind_congr same (startKind_of_asked (asked next))

/-! ## The serial of IDLE -/

/-- A classification moves the epoch from OPEN to DOOMED at most, and never its serial. -/
theorem Classified.epoch (h : Classified s t) :
    t.epoch.serial = s.epoch.serial ∧ t.epoch.written = s.epoch.written ∧
      (t.epoch.state = s.epoch.state ∨ s.epoch.state = .opened ∧ t.epoch.state = .doomed) := by
  cases h with
  | claimed =>
    simp only [joined, completeHost_epoch, State.reserve]
    split <;> exact ⟨rfl, rfl, .inl rfl⟩
  | doomed r x free live => exact ⟨rfl, rfl, .inr ⟨live, rfl⟩⟩
  | _ => exact ⟨rfl, rfl, .inl rfl⟩

/-- The parts of the serial's law that no operation in progress is part of. -/
def serialSteps (s : State) : Prop :=
  (s.journal.format ≠ none → s.control.device = .ready ∧ s.journal.status = .formatting) ∧
    (s.control.device ≠ .ready → s.journal.status = .unformatted) ∧
    (s.journal.status = .formatted → s.epoch.state = .idle → s.epoch.serial = s.journal.anchorSerial)

theorem serialLaw_iff :
    s.serialLaw ↔ s.startOrder ∧ serialSteps s ∧
      ∀ op, s.port.op = some op → op.kind = .formatAnchor → s.journal.format ≠ none :=
  ⟨fun ⟨o, f, a, u, n⟩ => ⟨o, ⟨f, u, n⟩, a⟩, fun ⟨o, ⟨f, u, n⟩, a⟩ => ⟨o, f, a, u, n⟩⟩

theorem serialSteps_classify (h : serialSteps s) : serialSteps s.classify := by
  obtain ⟨serial, -, state⟩ := (classified s).epoch
  unfold serialSteps
  rw [classify_journal, classify_control, serial]
  refine ⟨h.1, h.2.1, fun f idle => h.2.2 f ?_⟩
  rcases state with same | ⟨-, now⟩
  · exact same.symm.trans idle
  · exact absurd (now.symm.trans idle) (by decide)

theorem serialSteps_finishRecord (h : serialSteps s) : serialSteps s.finishRecord := by
  rw [finishRecord_changes]
  exact h

/-- A run is no part of the serial's law. -/
theorem serialSteps_startAbortRun (h : serialSteps s) : serialSteps s.startAbortRun := by
  rw [startAbortRun_changes]
  exact h

/-- An epoch that is not in IDLE owes its serial nothing. -/
theorem serialSteps_of_epoch (e : Epoch) (q : List QueueEntry) (live : e.state ≠ .idle) (h : serialSteps s) :
    serialSteps { s with epoch := e, host.queue := q } :=
  ⟨h.1, h.2.1, fun _ idle => absurd idle live⟩

theorem serialSteps_advanceFormat (h : serialSteps s) : serialSteps s.advanceFormat := by
  unfold State.advanceFormat
  split
  next job format => exact ⟨fun _ => h.1 (by simp [format]), h.2⟩
  · exact h

theorem closing_ne_idle {e : Epoch} (h : e.state = .opened ∨ e.state = .doomed) : e.state ≠ .idle := by
  rcases h with h | h <;> simp [h]

theorem serialSteps_change (law : s.serialLaw) (step : Change s t) : serialSteps t := by
  obtain ⟨order, steps, -⟩ := serialLaw_iff.1 law
  obtain ⟨⟨starting, ready, -⟩, kinds⟩ := startOrder_iff.1 order
  have ⟨format, unformatted, serial⟩ := steps
  have early : ∀ {op}, s.port.op = some op → s.control.step ≠ .done → s.control.device ≠ .ready :=
    fun _ other here => other (ready.1 here)
  cases step with
  | present => exact serialSteps_classify (s := { s with lines := _ }) steps
  | classify => exact serialSteps_classify steps
  | grant k up free next =>
    cases k
    case zeroAnchor c =>
      have job : s.journal.format ≠ none := by
        cases asked next with
        | zeroFirst job format => simp [format]
        | zeroSecond job format => simp [format]
      have busy := (format job).2
      simp only [State.grant, State.ownerGranted]
      split
      · exact ⟨format, unformatted, fun formatted => absurd (busy.symm.trans formatted) (by decide)⟩
      · exact steps
    case appendRead | queueWrite =>
      simp only [State.grant, State.ownerGranted]
      rw [headProgress_changes]
      exact steps
    all_goals exact steps
  | pauseRun => rw [pauseRun_changes]; exact steps
  | age elapsed runs live => exact serialSteps_of_epoch _ _ (closing_ne_idle live) steps
  | begin => exact serialSteps_of_epoch _ _ (by simp) steps
  | commit => exact serialSteps_of_epoch _ _ (by simp) steps
  | abort => exact serialSteps_startAbortRun (serialSteps_of_epoch _ _ (by simp) steps)
  | startFormat here => exact ⟨fun _ => ⟨here, rfl⟩, fun other => absurd here other, nofun⟩
  | switchFormat =>
    refine ⟨fun job => format fun gone => job ?_, unformatted, serial⟩
    show s.journal.format.map _ = none
    rw [gone]; rfl
  | editDescriptor => rw [storeTable_changes]; exact steps
  | editDefaults => rw [storeTable_changes]; exact steps
  | disarm => rw [disarm_changes]; exact steps
  | appendWrite => rw [headProgress_changes]; exact steps
  | cancelledAppend => exact serialSteps_startAbortRun steps
  | damagedRecord => exact serialSteps_finishRecord steps
  | restore => exact serialSteps_finishRecord steps
  | commitAnchor => exact ⟨format, unformatted, fun _ _ => rfl⟩
  | abortAnchor => exact ⟨format, unformatted, fun _ _ => rfl⟩
  | zeroed op => exact serialSteps_advanceFormat (s := s.afterOp op) steps
  | formatConfig op c => exact serialSteps_advanceFormat (s := (s.afterOp op).installConfig c) steps
  | formatAnchor op busy kind =>
    have job := law.2.2.1 op busy kind
    exact ⟨fun none => absurd rfl none, fun other => absurd (format job).1 other, fun _ _ => rfl⟩
  | configNone op busy kind =>
    have was := unformatted (early busy (by simp [(kinds op busy).1 _ kind]))
    exact ⟨fun job => ⟨rfl, (format job).2⟩, fun other => absurd rfl other, fun f => absurd (was.symm.trans f) (by decide)⟩
  | configReady op c ws x busy kind =>
    have was := unformatted (early busy (by simp [(kinds op busy).1 _ kind]))
    exact ⟨fun job => ⟨rfl, (format job).2⟩, fun other => absurd rfl other, fun f => absurd (was.symm.trans f) (by decide)⟩
  | configJournal op c ws x busy kind =>
    have here := early busy (by simp [(kinds op busy).1 _ kind])
    have was := unformatted here
    exact ⟨fun job => absurd (format job).1 here, fun _ => was, fun f => absurd (was.symm.trans f) (by decide)⟩
  | anchorNone op busy kind =>
    have was := unformatted (early busy (by simp [(kinds op busy).2.1 _ kind]))
    exact ⟨fun job => ⟨rfl, (format job).2⟩, fun other => absurd rfl other, fun f => absurd (was.symm.trans f) (by decide)⟩
  | anchorFound op busy kind =>
    have was := unformatted (early busy (by simp [(kinds op busy).2.1 _ kind]))
    exact ⟨format, unformatted, fun f => absurd (was.symm.trans f) (by decide)⟩
  | scanNone op busy kind =>
    have here := early busy (by simp [(kinds op busy).2.2.1 kind])
    exact ⟨fun job => absurd (format job).1 here, fun other => absurd rfl other, fun _ _ => rfl⟩
  | recovered op c busy kind =>
    have here := early busy (by simp [(kinds op busy).2.2.2 _ kind])
    exact ⟨fun job => absurd (format job).1 here, fun other => absurd rfl other, fun _ _ => rfl⟩
  | _ => exact steps

/-- Only FORMAT's last completion ends a FORMAT. -/
theorem format_of_busy (step : Change s t) (busy : t.port.op ≠ none) (job : s.journal.format ≠ none) :
    t.journal.format ≠ none := by
  cases step with
  | present | classify => rw [classify_journal]; exact job
  | grant k =>
    cases k
    case zeroAnchor => simp only [State.grant, State.ownerGranted]; split <;> exact job
    case appendRead | queueWrite => simp only [State.grant, State.ownerGranted]; rw [headProgress_changes]; exact job
    all_goals exact job
  | pauseRun => rw [pauseRun_changes]; exact job
  | abort => rw [startAbortRun_changes]; exact job
  | startFormat => exact nofun
  | switchFormat =>
    intro gone
    exact job (Option.map_eq_none_iff.1 (show s.journal.format.map _ = none from gone))
  | editDescriptor => rw [storeTable_changes]; exact job
  | editDefaults => rw [storeTable_changes]; exact job
  | disarm => rw [disarm_changes]; exact job
  | appendWrite => rw [headProgress_changes]; exact job
  | cancelledAppend => rw [startAbortRun_changes]; exact job
  | damagedRecord => unfold State.damagedRecord; rw [finishRecord_changes]; exact job
  | restore => rw [finishRecord_changes]; exact job
  | zeroed => exact absurd (by rw [advanceFormat_changes]; rfl) busy
  | formatConfig => exact absurd (by rw [advanceFormat_changes]; rfl) busy
  | formatAnchor => exact absurd rfl busy
  | _ => exact job

theorem formatAnchor_of_asked (h : Asked s .formatAnchor) : s.journal.format ≠ none := by
  cases h with
  | formatAnchor job format => simp [format]

theorem formatAnchor_change (law : ∀ op, s.port.op = some op → op.kind = .formatAnchor → s.journal.format ≠ none)
    (step : Change s t) : ∀ op, t.port.op = some op → op.kind = .formatAnchor → t.journal.format ≠ none := by
  intro op busy kind
  have job : s.journal.format ≠ none := by
    rcases step.keepsOp with keeps | ⟨k, rfl, free, next⟩
    · rcases keeps.kind busy with ⟨op', was, same⟩ | ⟨i, other⟩
      · exact law op' was (same.trans kind)
      · exact nomatch other.symm.trans kind
    · rw [grant_port] at busy
      cases busy
      rw [operationFor_kind] at kind
      exact formatAnchor_of_asked (kind ▸ asked next)
  exact format_of_busy step (by simp [busy]) job

/-- The serial's law and the order of start-up hold of a part whose blocks are reset. -/
theorem serialLaw_resetBlocks (s : State) (cause : ResetCause) : (s.resetBlocks cause).serialLaw :=
  serialLaw_iff.2 ⟨startOrder_iff.2 ⟨⟨by simp, by simp, by simp⟩, by simp⟩, ⟨by simp, by simp, by simp⟩, by simp⟩

theorem kept_serialLaw : Kept State.serialLaw where
  pending _ _ law := law
  change s t law step := by
    have op := formatAnchor_change law.2.2.1 step
    exact serialLaw_iff.2 ⟨startOrder_change law.1 step, serialSteps_change law step, op⟩
  clearHold _ law := law
  resumeRun s law := by rw [resumeRun_changes]; exact law
  beginReset _ _ cause _ _ _ := serialLaw_resetBlocks _ cause
  endReset s l law free on presented := by
    obtain ⟨order, steps, op⟩ := serialLaw_iff.1 law
    refine serialLaw_iff.2 ⟨?_, serialSteps_classify (s := { s with lines := l, control.hold := _, frame.phase := _ }) steps,
      ?_⟩
    · unfold State.startOrder State.endReset
      rw [classify_control, classify_rollback, classify_port]
      exact order
    · unfold State.endReset
      rw [classify_port, classify_journal]
      exact op
  line _ _ law _ _ _ := law

/-- Settles O59: the serial and the anchor's next serial move together, and where FORMATTED begins they are equal. -/
theorem stepsKeepTheSerialOfTheAnchor : Obligations.StepsKeepTheSerialOfTheAnchor := kept_serialLaw.step

end Sys2Proof.Proofs

namespace Sys2Proof.Proofs
open Sys2Proof.Machine Sys2Proof.Laws

variable {s t : State} {x : RegionTable} {l : Location}

/-! ## The law of R82 on a table -/

/-- The law of R82, descriptor by descriptor. -/
theorem lawful_iff :
    x.lawful l = true ↔ ∀ i : Fin 16, x.descs[i].valid = true →
      x.descs[i].first.toNat ≤ x.descs[i].last.toNat ∧ 9 ≤ x.descs[i].first.toNat ∧
        x.descs[i].overlapsArea l = false ∧ ∀ j : Fin 16, i ≠ j → x.descs[i].overlaps x.descs[j] = false := by
  simp [RegionTable.lawful, imp_iff_not_or, and_assoc]
  rfl

theorem overlaps_comm (d e : Descriptor) : d.overlaps e = e.overlaps d := by
  simp only [Descriptor.overlaps]
  rw [Bool.and_comm d.valid, Bool.and_assoc, Bool.and_assoc _ (decide _),
    Bool.and_comm (decide _)]

/-- A descriptor with valid no overlaps nothing. -/
theorem overlaps_of_not_valid {d : Descriptor} (e : Descriptor) (h : d.valid = false) : e.overlaps d = false := by
  simp [Descriptor.overlaps, h]

/-- A table that keeps the law on one location keeps it on another that no descriptor overlaps. -/
theorem lawful_of_apart {l' : Location} (h : x.lawful l = true) (apart : x.overlapsArea l' = false) :
    x.lawful l' = true := by
  refine lawful_iff.2 fun i valid => ?_
  obtain ⟨order, free, -, others⟩ := lawful_iff.1 h i valid
  refine ⟨order, free, ?_, others⟩
  by_contra overlaps
  have found : x.overlapsArea l' = true :=
    (any_toList_iff x.descs _).2 ⟨i, by simpa using overlaps⟩
  exact absurd (apart.symm.trans found) (by decide)

/-- A descriptor that keeps the law beside the others takes its place (R84). -/
theorem lawful_set (i : Fin 16) (d : Descriptor) (h : x.lawful l = true)
    (new : d.valid = true → d.first.toNat ≤ d.last.toNat ∧ 9 ≤ d.first.toNat ∧ d.overlapsArea l = false ∧
      ∀ j : Fin 16, j ≠ i → d.overlaps x.descs[j] = false) :
    ({ x with descs := x.descs.set i d } : RegionTable).lawful l = true := by
  have other : ∀ j : Fin 16, j ≠ i → (x.descs.set i d)[j] = x.descs[j] := fun j h =>
    Vector.getElem_set_ne _ _ (fun e => h (Fin.ext e.symm))
  have here : (x.descs.set i d)[i] = d := Vector.getElem_set_self _
  refine lawful_iff.2 fun j valid => ?_
  simp only at valid ⊢
  by_cases ji : j = i
  · subst ji
    rw [here] at valid ⊢
    obtain ⟨order, free, area, others⟩ := new valid
    refine ⟨order, free, area, fun k kj => ?_⟩
    rw [other k kj.symm]
    exact others k kj.symm
  · rw [other j ji] at valid ⊢
    obtain ⟨order, free, area, others⟩ := lawful_iff.1 h j valid
    refine ⟨order, free, area, fun k jk => ?_⟩
    by_cases ki : k = i
    · subst ki
      rw [here, overlaps_comm]
      cases v : d.valid
      · rw [overlaps_comm, overlaps_of_not_valid _ v]
      · exact (new v).2.2.2 j ji
    · rw [other k ki]
      exact others k jk

theorem judgeConfig_lawful {ws : List Word} {c : StoredConfig} (h : judgeConfig ws = some c) :
    c.table.lawful c.location = true := by
  unfold judgeConfig at h
  split at h
  · split at h <;> cases h
    next ok => exact ok.2.2.2.1
  · cases h

/-! ## The law of the regions -/

/-- The tables and the locations keep the law of R82, live and staged. -/
def tablesLawful (r : Regions) (j : Journal) : Prop :=
  r.live.lawful j.live = true ∧ (∀ l, j.staged = some l → r.live.lawful l = true) ∧
    ∀ x, r.staged = some x → x.lawful j.live = true ∧ ∀ l, j.staged = some l → x.lawful l = true

/-- Nothing is staged before READY, and configuration copies are asked in STARTING alone. -/
def stagedReady (s : State) : Prop :=
  (s.control.device ≠ .ready → s.journal.staged = none ∧ s.regions.staged = none) ∧
    (s.control.step = .configRead → s.control.device = .starting)

theorem regionLaw_iff :
    s.regionLaw ↔ tablesLawful s.regions s.journal ∧ stagedReady s ∧
      ∀ op c, s.port.op = some op → op.kind = .configRead c → s.control.device = .starting :=
  ⟨fun ⟨a, b, c, d, e, f⟩ => ⟨⟨a, b, c⟩, ⟨d, e⟩, f⟩, fun ⟨⟨a, b, c⟩, ⟨d, e⟩, f⟩ => ⟨a, b, c, d, e, f⟩⟩

/-- Every table staged or live is lawful on every location staged or live. -/
theorem tablesLawful.of_live {r : Regions} {j : Journal} (h : tablesLawful r j) :
    (r.live.lawful (j.staged.getD j.live) = true) ∧
      ∀ x, r.staged = some x → x.lawful (j.staged.getD j.live) = true := by
  obtain ⟨live, staged, tables⟩ := h
  cases e : j.staged with
  | none => exact ⟨live, fun x found => (tables x found).1⟩
  | some l => exact ⟨staged l e, fun x found => (tables x found).2 l e⟩

theorem tablesLawful_atIdle {r : Regions} {j : Journal} (h : tablesLawful r j) :
    tablesLawful { r with live := r.staged.getD r.live, staged := none } j := by
  obtain ⟨live, staged, tables⟩ := h
  cases e : r.staged with
  | none => exact ⟨live, staged, nofun⟩
  | some x => exact ⟨(tables x e).1, (tables x e).2, nofun⟩

/-- The table an edit enters is lawful wherever the tables are. -/
theorem editedTable_lawful (h : tablesLawful s.regions s.journal) :
    s.editedTable.lawful s.journal.live = true ∧
      ∀ l, s.journal.staged = some l → s.editedTable.lawful l = true := by
  obtain ⟨live, staged, tables⟩ := h
  unfold State.editedTable
  split
  · exact ⟨live, staged⟩
  · cases e : s.regions.staged with
    | none => exact ⟨live, staged⟩
    | some x => exact tables x e

theorem tablesLawful_storeTable (h : tablesLawful s.regions s.journal) (here : x.lawful s.journal.live = true)
    (staged : ∀ l, s.journal.staged = some l → x.lawful l = true) :
    tablesLawful (s.storeTable x).regions s.journal := by
  unfold State.storeTable
  split
  · exact ⟨here, staged, h.2.2⟩
  · exact ⟨h.1, h.2.1, fun y e => by cases e; exact ⟨here, staged⟩⟩

/-- A descriptor that R84 finds no conflict with keeps the law in the table the edit enters. -/
theorem lawful_edit (i : Fin 16) (d : Descriptor) (lawful : s.editedTable.lawful l = true)
    (place : l = s.journal.live ∨ s.journal.staged = some l)
    (valid : d.valid = true → d.first.toNat ≤ d.last.toNat ∧ s.conflicts i d = false) :
    ({ s.editedTable with descs := s.editedTable.descs.set i d } : RegionTable).lawful l = true := by
  refine lawful_set i d lawful fun v => ?_
  obtain ⟨order, free⟩ := valid v
  simp only [State.conflicts, Bool.or_eq_false_iff] at free
  obtain ⟨⟨⟨low, live⟩, staged⟩, others⟩ := free
  refine ⟨order, not_lt.1 (of_decide_eq_false low), ?_, fun j ji => ?_⟩
  · rcases place with rfl | e
    · exact live
    · simpa [e] using staged
  · have := List.any_eq_false.1 others j (List.mem_finRange j)
    simpa [ji] using this

theorem tablesLawful_stage (h : tablesLawful s.regions s.journal) (apart : s.regions.live.overlapsArea l = false)
    (apartStaged : ∀ x, s.regions.staged = some x → x.overlapsArea l = false) :
    tablesLawful s.regions { s.journal with staged := some l } := by
  refine ⟨h.1, fun l' e => ?_, fun x found => ⟨(h.2.2 x found).1, fun l' e => ?_⟩⟩
  · cases e; exact lawful_of_apart h.1 apart
  · cases e; exact lawful_of_apart (h.2.2 x found).1 (apartStaged x found)

theorem tablesLawful_change (law : s.regionLaw) (step : Change s t) : tablesLawful t.regions t.journal := by
  obtain ⟨tables, ⟨before, -⟩, reads⟩ := regionLaw_iff.1 law
  cases step with
  | present | classify => rw [classify_regions, classify_journal]; exact tables
  | grant k =>
    cases k
    case zeroAnchor => simp only [State.grant, State.ownerGranted]; split <;> exact tables
    case appendRead | queueWrite => simp only [State.grant, State.ownerGranted]; rw [headProgress_changes]; exact tables
    all_goals exact tables
  | pauseRun => rw [pauseRun_changes]; exact tables
  | abort => rw [startAbortRun_changes]; exact tables
  | stageJournal l ready idle valid apart apartStaged => exact tablesLawful_stage (s := s) tables apart apartStaged
  | switchFormat => exact ⟨tables.of_live.1, nofun, fun x found => ⟨tables.of_live.2 x found, nofun⟩⟩
  | editDescriptor i d ready valid =>
    obtain ⟨live, staged⟩ := editedTable_lawful tables
    have stored := tablesLawful_storeTable tables (lawful_edit i d live (.inl rfl) valid)
      fun l e => lawful_edit i d (staged l e) (.inr e) valid
    rw [storeTable_changes]
    exact stored
  | editDefaults d =>
    obtain ⟨live, staged⟩ := editedTable_lawful tables
    have stored := tablesLawful_storeTable (x := { s.editedTable with defaults := d }) tables live staged
    rw [storeTable_changes]
    exact stored
  | disarm => rw [disarm_changes]; exact tables
  | appendWrite => rw [headProgress_changes]; exact tables
  | cancelledAppend => rw [startAbortRun_changes]; exact tables
  | damagedRecord => unfold State.damagedRecord; rw [finishRecord_changes]; exact tables
  | restore => rw [finishRecord_changes]; exact tables
  | commitAnchor => exact tablesLawful_atIdle tables
  | abortAnchor => exact tablesLawful_atIdle tables
  | zeroed => rw [advanceFormat_changes]; exact tables
  | formatConfig => rw [advanceFormat_changes]; exact tables
  | configReady op c ws x busy kind judged | configJournal op c ws x busy kind judged =>
    have unstaged : ∀ l, s.journal.staged ≠ some l := by simp [(before (by simp [reads op _ busy kind])).1]
    exact ⟨judgeConfig_lawful judged, fun l found => absurd found (unstaged l), nofun⟩
  | _ => exact tables

theorem stagedReady_atIdle (h : stagedReady s) : stagedReady s.atIdle :=
  ⟨fun d => ⟨(h.1 d).1, rfl⟩, h.2⟩

theorem stagedReady_finishRecord (h : stagedReady s) : stagedReady s.finishRecord := by
  refine ⟨fun d => ?_, fun step => ?_⟩
  · rw [finishRecord_changes] at d ⊢
    exact h.1 d
  · have same : s.finishRecord.control.device = s.control.device := by rw [finishRecord_changes]
    rw [same]
    unfold State.finishRecord at step
    split at step
    · split at step
      · exact nomatch step
      · exact h.2 step
      · exact h.2 step
    · exact h.2 step

theorem stagedReady_change (law : s.regionLaw) (step : Change s t) : stagedReady t := by
  obtain ⟨-, ready, reads⟩ := regionLaw_iff.1 law
  cases step with
  | present | classify => unfold stagedReady; rw [classify_control, classify_regions, classify_journal]; exact ready
  | grant k =>
    cases k
    case zeroAnchor => simp only [State.grant, State.ownerGranted]; split <;> exact ready
    case appendRead | queueWrite => simp only [State.grant, State.ownerGranted]; rw [headProgress_changes]; exact ready
    all_goals exact ready
  | pauseRun => rw [pauseRun_changes]; exact ready
  | abort => rw [startAbortRun_changes]; exact ready
  | stageJournal l here => exact ⟨fun other => absurd here other, ready.2⟩
  | switchFormat => exact ⟨fun d => ⟨rfl, (ready.1 d).2⟩, ready.2⟩
  | editDescriptor i d here =>
    rw [storeTable_changes]
    exact ⟨fun other => absurd here other, ready.2⟩
  | editDefaults d here =>
    rw [storeTable_changes]
    exact ⟨fun other => absurd here other, ready.2⟩
  | disarm => rw [disarm_changes]; exact ready
  | appendWrite => rw [headProgress_changes]; exact ready
  | cancelledAppend => rw [startAbortRun_changes]; exact ready
  | damagedRecord => exact stagedReady_finishRecord ready
  | restore => exact stagedReady_finishRecord ready
  | commitAnchor => exact stagedReady_atIdle (s := State.raise _ _) ready
  | abortAnchor => exact stagedReady_atIdle (s := State.raise _ _) ready
  | zeroed => rw [advanceFormat_changes]; exact ready
  | formatConfig => rw [advanceFormat_changes]; exact ready
  | configNone | configReady | anchorNone | scanNone | recovered => exact ⟨fun other => absurd rfl other, nofun⟩
  | configJournal op c ws x busy kind =>
    have before := ready.1 (by simp [reads op _ busy kind])
    exact ⟨fun _ => ⟨before.1, rfl⟩, nofun⟩
  | anchorFound => exact ⟨ready.1, nofun⟩
  | scanRun => exact ⟨ready.1, nofun⟩
  | _ => exact ready

theorem regionLaw_resetBlocks (s : State) (cause : ResetCause) : (s.resetBlocks cause).regionLaw :=
  have blank : ({} : RegionTable).lawful {} = true := by decide
  regionLaw_iff.2 ⟨⟨blank, nofun, nofun⟩, ⟨fun _ => ⟨rfl, rfl⟩, fun _ => rfl⟩, nofun⟩

theorem kept_regionLaw : Kept State.regionLaw where
  pending _ _ law := law
  change s t law step := by
    refine regionLaw_iff.2 ⟨tablesLawful_change law step, stagedReady_change law step, fun op c busy kind => ?_⟩
    obtain ⟨-, ready, reads⟩ := regionLaw_iff.1 law
    rw [(control_of_busy step (by simp [busy])).1]
    rcases step.keepsOp with keeps | ⟨k, rfl, free, next⟩
    · rcases keeps.kind busy with ⟨op', was, same⟩ | ⟨i, other⟩
      · exact reads op' c was (same.trans kind)
      · exact nomatch other.symm.trans kind
    · rw [grant_port] at busy
      cases busy
      rw [operationFor_kind] at kind
      exact ready.2 ((startKind_of_asked (asked next)).1 c kind)
  clearHold _ law := law
  resumeRun s law := by rw [resumeRun_changes]; exact law
  beginReset _ _ cause _ _ _ := regionLaw_resetBlocks _ cause
  endReset s l law free on presented := by
    unfold State.regionLaw State.endReset
    rw [classify_control, classify_regions, classify_journal, classify_port]
    exact law
  line _ _ law _ _ _ := law

/-- Settles O58: each edit is checked against the live and the staged locations, each location against the tables. -/
theorem stepsKeepTheRegionLaw : Obligations.StepsKeepTheRegionLaw := kept_regionLaw.step

end Sys2Proof.Proofs
end

section
-- One declaration at a time: each thread that waits for another reserves memory of the check.
set_option Elab.async false
/-! The order of an epoch's work (chapters 1, 4, 6 and 8), effect by effect: what keeps it because nothing of the work
changes, and what each effect of the epoch, the queue and the run does to it. -/

namespace Sys2Proof.Proofs
open Sys2Proof.Machine Sys2Proof.Laws

variable {s t : State} {op : Operation}

/-! ## Changes that leave the work as it is -/

/-- The work of the epoch, the queue and the run is the same in two states, as far as the order of work looks at it. -/
structure SameWork (s t : State) : Prop where
  epoch : t.epoch = s.epoch := by rfl
  set : t.loggedSet = s.loggedSet := by rfl
  queue : t.host.queue = s.host.queue := by rfl
  run : t.rollback.run = s.rollback.run := by rfl
  phase : t.rollback.phase = s.rollback.phase := by rfl
  remaining : t.rollback.remaining = s.rollback.remaining := by rfl
  slots : s.epoch.state ≠ .idle → t.slots = s.slots := by intro _; rfl
  device : s.epoch.state ≠ .idle → s.control.device = .ready → t.control.device = .ready := by intro _ h; exact h
  format : s.epoch.state ≠ .idle → s.journal.format = none → t.journal.format = none := by intro _ h; exact h
  job : t.port.op ≠ none → s.journal.format ≠ none → t.journal.format ≠ none := by intro _ h; exact h
  staged : s.epoch.state = .idle → s.regions.staged = none → t.regions.staged = none := by intro _ h; exact h
  op : KeepsOp s t
  write : ∀ op, s.port.op = some op → op.kind = .queueWrite → t.port.op = some op

theorem workLaw_of_same (law : s.workLaw) (order : t.startOrder) (same : SameWork s t) : t.workLaw := by
  obtain ⟨epoch, set, queue, run, phase, remaining, slots, device, format, job, staged, keeps, write⟩ := same
  obtain ⟨-, idle, balance, ⟨bound, tags, owes⟩, rolling, ⟨tail, writing, ops⟩⟩ := law
  have flight : t.appendInFlight = s.appendInFlight := by simp only [State.appendInFlight, queue]
  have owed : t.owedSequences = s.owedSequences := by simp only [State.owedSequences, queue]
  have progress : t.writeInProgress = s.writeInProgress := by simp only [State.writeInProgress, queue]
  refine ⟨order, fun h => ?_, ?_, ⟨fun h => ?_, ?_, ?_⟩, ?_, ?_, fun h => ?_, fun o busy => ?_⟩
  · rw [epoch] at h
    obtain ⟨a, b, c, d, e, f, g, q⟩ := idle h
    rw [epoch, set, queue]
    exact ⟨a, b, c, d, e, f, staged h g, q⟩
  · unfold State.reservationsBalance
    rw [epoch, set, owed]
    exact balance
  · rw [epoch] at h ⊢
    obtain ⟨a, b, c, d⟩ := bound h
    exact ⟨a, (slots h).symm ▸ b, device h c, format h d⟩
  · rw [queue, epoch]; exact tags
  · rw [queue]; exact owes
  · unfold State.rollingBackOrder
    rw [epoch, queue, owed, flight, run, phase, remaining]
    exact rolling
  · rw [queue]; exact tail
  · rw [progress] at h
    obtain ⟨o, busy, kind⟩ := writing h
    exact ⟨o, write o busy kind, kind⟩
  · rw [progress, flight, phase, epoch, queue, run]
    rcases keeps o busy with was | ⟨i, o', was, kind, rfl⟩
    · obtain ⟨a, b, c, d, e, f, g⟩ := ops o was
      exact ⟨a, b, c, d, fun k => job (by simp [busy]) (e k), f, g⟩
    · simp

theorem write_of_eq (h : t.port.op = s.port.op) : ∀ op, s.port.op = some op → op.kind = .queueWrite → t.port.op = some op :=
  fun _ busy _ => h.trans busy

theorem write_of_other (busy : s.port.op = some op) (other : op.kind ≠ .queueWrite) :
    ∀ o, s.port.op = some o → o.kind = .queueWrite → t.port.op = some o :=
  fun o was kind => absurd kind (by cases busy.symm.trans was; exact other)

/-- The port is free again after an operation that is not the head's word write. -/
theorem workLaw_afterOp (law : s.workLaw) (busy : s.port.op = some op) (other : op.kind ≠ .queueWrite) :
    (s.afterOp op).workLaw :=
  workLaw_of_same law (startOrder_iff.2 ⟨(startOrder_iff.1 law.1).1, nofun⟩)
    { op := keepsOp_of_none rfl, write := write_of_other busy other }

/-! ## What holds while the epoch is in IDLE, and while it is not -/

theorem idle_of_format (law : s.workLaw) (job : s.journal.format ≠ none) : s.epoch.state = .idle := by
  by_contra live
  exact job (law.2.2.2.1.1 live).2.2.2

theorem idle_of_early (law : s.workLaw) (early : s.control.device ≠ .ready) : s.epoch.state = .idle := by
  by_contra live
  exact early (law.2.2.2.1.1 live).2.2.1

theorem step_of_idle_entries (law : s.workLaw) (idle : s.epoch.state = .idle) : ∀ e ∈ s.host.queue, e.tag = none :=
  (law.2.1 idle).2.2.2.2.2.2.2

/-- In an epoch no recovery run is in progress. -/
theorem run_ne_recovery (law : s.workLaw) (live : s.epoch.state ≠ .idle) : s.rollback.run ≠ .recovery := by
  intro run
  obtain ⟨⟨-, ready, recovery, -⟩, -, -, ⟨bound, -, -⟩, -, -⟩ := law
  exact absurd (recovery run) (by simp [ready.1 (bound live).2.2.1])

/-- Outside ROLLING_BACK an epoch has no run. -/
theorem run_none (law : s.workLaw) (live : s.epoch.state ≠ .idle) (forward : s.epoch.state ≠ .rollingBack) :
    s.rollback.run = .none := by
  obtain ⟨-, -, -, -, ⟨-, -, abort, -, -⟩, -⟩ := id law
  cases run : s.rollback.run with
  | none => rfl
  | abort => exact absurd (abort run).1 forward
  | recovery => exact absurd run (run_ne_recovery law live)

/-- The serial of IDLE is free to move: no entry carries it. -/
theorem workLaw_serial (law : s.workLaw) (idle : s.epoch.state = .idle) (serial : Serial) :
    ({ s with epoch.serial := serial } : State).workLaw := by
  have untagged := step_of_idle_entries law idle
  obtain ⟨order, clean, balance, ⟨bound, -, owes⟩, rolling, port⟩ := law
  exact ⟨order, clean, balance, ⟨fun live => absurd idle live, fun e here => .inl (untagged e here), owes⟩, rolling, port⟩

/-! ## The queue -/

/-- Whether a queue's head has its append in flight, its sequences owed: functions of the queue alone. -/
theorem appendInFlight_eq (s : State) : s.appendInFlight = s.host.queue.head?.any (fun e => e.progress == .appendInFlight) := by
  unfold State.appendInFlight
  cases s.host.queue <;> rfl

/-- An entry that joins behind a queue leaves its head's state alone. -/
theorem head_append {q : List QueueEntry} {e : QueueEntry} (p : Progress) (new : e.progress ≠ p) :
    (q ++ [e]).head?.any (fun e => e.progress == p) = q.head?.any (fun e => e.progress == p) := by
  cases q with
  | nil => simp [new]
  | cons head rest => rfl

theorem tail_append_mem {q : List QueueEntry} {e x : QueueEntry} (h : x ∈ (q ++ [e]).tail) : x ∈ q.tail ∨ x = e := by
  cases q with
  | nil => simp at h
  | cons head rest => simpa using h

theorem head_append_eq {q : List QueueEntry} {e x : QueueEntry} (h : (q ++ [e]).head? = some x) :
    q.head? = some x ∨ q = [] ∧ x = e := by
  cases q with
  | nil => exact .inr ⟨rfl, by simpa using h.symm⟩
  | cons head rest => exact .inl h

/-! ## The host's writes -/

theorem owed_append {q : List QueueEntry} {e : QueueEntry} :
    ((q ++ [e]).filter QueueEntry.owes).map QueueEntry.sequence =
      (q.filter QueueEntry.owes).map QueueEntry.sequence ++ if e.owes then [e.sequence] else [] := by
  cases owes : e.owes <;> simp [owes]

/-- An entry without an append joins the queue (R106, R107, R28). -/
theorem workLaw_join (law : s.workLaw) (e : QueueEntry) (waits : e.progress = .writeWaiting)
    (tag : e.tag = none ∨ e.tag = some s.epoch.serial ∧ s.epoch.state = .opened) :
    ({ s with host.queue := s.host.queue ++ [e] } : State).workLaw := by
  obtain ⟨order, idle, balance, ⟨bound, tags, owes⟩, ⟨back, head, abort, none, recovery⟩, ⟨tail, writing, ops⟩⟩ := law
  have plain : e.owes = false := by simp [QueueEntry.owes, waits]
  have owed : ({ s with host.queue := s.host.queue ++ [e] } : State).owedSequences = s.owedSequences := by
    simp only [State.owedSequences, owed_append, plain]; simp
  have flight : ({ s with host.queue := s.host.queue ++ [e] } : State).appendInFlight = s.appendInFlight := by
    simp only [appendInFlight_eq]; exact head_append _ (by simp [waits])
  have progress : ({ s with host.queue := s.host.queue ++ [e] } : State).writeInProgress = s.writeInProgress :=
    head_append _ (by simp [waits])
  have untagged : s.epoch.state ≠ .opened → e.tag = Option.none := fun other => by
    rcases tag with h | ⟨-, h⟩
    · exact h
    · exact absurd h other
  refine ⟨order, fun h => ?_, ?_, ⟨bound, ?_, ?_⟩, ⟨fun h => ?_, ?_, ?_, none, recovery⟩, ?_, ?_, fun o busy => ?_⟩
  · obtain ⟨a, b, c, d, f, g, i, q⟩ := idle h
    refine ⟨a, b, c, d, f, g, i, fun x here => ?_⟩
    rcases List.mem_append.1 here with old | new
    · exact q x old
    · exact List.mem_singleton.1 new ▸ untagged (by simp [show s.epoch.state = .idle from h])
  · unfold State.reservationsBalance
    rw [owed]
    exact balance
  · intro x here
    rcases List.mem_append.1 here with old | new
    · exact tags x old
    · obtain rfl := List.mem_singleton.1 new
      exact tag.imp id And.left
  · intro x here
    rcases List.mem_append.1 here with old | new
    · exact owes x old
    · rw [List.mem_singleton.1 new, plain]; exact nofun
  · obtain ⟨a, b, c⟩ := back h
    have no := untagged (by simp [show s.epoch.state = .rollingBack from h])
    refine ⟨fun x here => ?_, fun x here => ?_, ?_⟩
    · rcases tail_append_mem here with old | rfl
      · exact a x old
      · exact no
    · rcases head_append_eq here with old | ⟨-, rfl⟩
      · exact b x old
      · exact fun some => absurd no some
    · rw [owed, flight]; exact c
  · rw [flight]; exact head
  · rw [flight]; exact abort
  · intro x here
    rcases tail_append_mem here with old | rfl
    · exact tail x old
    · exact .inr waits
  · rw [progress]; exact writing
  · obtain ⟨a, b, c, d, f, g, i⟩ := ops o busy
    have join : (∀ x ∈ s.host.queue, x.tag = Option.none) → s.epoch.state ≠ .opened →
        ∀ x ∈ s.host.queue ++ [e], x.tag = Option.none := by
      intro old other x here
      rcases List.mem_append.1 here with h | h
      · exact old x h
      · exact List.mem_singleton.1 h ▸ untagged other
    rw [progress, flight]
    refine ⟨a, b, c, d, f, fun k h => ⟨(g k h).1, ?_⟩, fun k h => ⟨(i k h).1, (i k h).2.1, ?_⟩⟩
    · exact join (g k h).2 (by simp [(g k h).1])
    · exact join (i k h).2.2 (by simp [(abort (i k h).1).1])

/-- A write with a granted claim joins the queue with its append (R5, R29, R30). -/
theorem workLaw_claim (law : s.workLaw) (e : QueueEntry) (set : List SetEntry) (spills : Nat)
    (live : s.epoch.state = .opened) (left : s.epoch.reserved < s.slots) (waits : e.progress = .appendWaiting)
    (tag : e.tag = some s.epoch.serial) (append : e.append ≠ none) (sequence : e.sequence = s.epoch.reserved)
    (count : set.length + spills = s.loggedSet.length + s.epoch.spills + 1) :
    ({ s with
      epoch := { s.epoch with reserved := s.epoch.reserved + 1, spills := spills }
      loggedSet := set
      host.queue := s.host.queue ++ [e] } : State).workLaw := by
  have run := run_none law (by simp [live]) (by simp [live])
  obtain ⟨order, -, balance, ⟨bound, tags, owes⟩, ⟨-, -, -, none, recovery⟩, ⟨tail, writing, ops⟩⟩ := law
  obtain ⟨balanced, owed⟩ := balance (.inl live)
  obtain ⟨le, -, ready, format⟩ := bound (by simp [live])
  have own : e.owes = true := by simp [QueueEntry.owes, waits]
  have progress : (s.host.queue ++ [e]).head?.any (fun e => e.progress == .writeInProgress) = s.writeInProgress :=
    head_append _ (by simp [waits])
  have flight : (s.host.queue ++ [e]).head?.any (fun e => e.progress == .appendInFlight) = s.appendInFlight := by
    rw [appendInFlight_eq]; exact head_append _ (by simp [waits])
  refine ⟨order, fun h => absurd (live.symm.trans h) (by decide), fun _ => ⟨?_, ?_⟩, ⟨fun _ => ⟨?_, left, ready, format⟩, ?_, ?_⟩,
    ⟨fun h => absurd (live.symm.trans h) (by decide), fun h => absurd (live.symm.trans h) (by decide),
      fun h => absurd (run.symm.trans h) (by decide), none, recovery⟩, ?_, ?_, fun o busy => ?_⟩
  · simp only; omega
  · show ((s.host.queue ++ [e]).filter QueueEntry.owes).map QueueEntry.sequence = _
    rw [owed_append, own, if_pos rfl, sequence, show (s.host.queue.filter QueueEntry.owes).map QueueEntry.sequence = _ from owed]
    simp only
    rw [show s.epoch.reserved + 1 - s.epoch.written = s.epoch.reserved - s.epoch.written + 1 by omega, List.range'_concat]
    congr 2
    omega
  · simp only; omega
  · intro x here
    rcases List.mem_append.1 here with old | new
    · exact tags x old
    · exact .inr (List.mem_singleton.1 new ▸ tag)
  · intro x here
    rcases List.mem_append.1 here with old | new
    · exact owes x old
    · obtain rfl := List.mem_singleton.1 new
      exact fun _ => ⟨by simp [tag], append⟩
  · intro x here
    rcases tail_append_mem here with old | rfl
    · exact tail x old
    · exact .inl waits
  · exact fun h => writing (progress.symm.trans h)
  · obtain ⟨a, b, c, d, f, g, i⟩ := ops o busy
    refine ⟨fun k => progress.trans (a k), fun k => ?_, c, d, f, fun k h => ?_, fun k h => ?_⟩
    · rw [appendInFlight_eq]; exact flight.trans (b k)
    · exact absurd (live.symm.trans (g k h).1) (by decide)
    · exact absurd (run.symm.trans (i k h).1) (by decide)

/-- The epoch record moves between OPEN, DOOMED and CLOSING, its serial and counters the same. -/
theorem workLaw_epoch (law : s.workLaw) (live : s.epoch.state = .opened ∨ s.epoch.state = .doomed) (e : Epoch)
    (state : e.state = .opened ∨ e.state = .doomed ∨ e.state = .closing) (serial : e.serial = s.epoch.serial)
    (reserved : e.reserved = s.epoch.reserved) (written : e.written = s.epoch.written)
    (spills : e.spills = s.epoch.spills) : ({ s with epoch := e } : State).workLaw := by
  have run := run_none law (closing_ne_idle live) (by rcases live with h | h <;> simp [h])
  obtain ⟨order, -, balance, ⟨bound, tags, owes⟩, ⟨-, -, -, spare, recovery⟩, ⟨tail, writing, ops⟩⟩ := law
  have awake : e.state ≠ .idle ∧ e.state ≠ .rollingBack := by rcases state with h | h | h <;> simp [h]
  refine ⟨order, fun h => absurd h awake.1, fun _ => ?_, ⟨fun _ => ?_, ?_, owes⟩,
    ⟨fun h => absurd h awake.2, fun h => absurd h awake.2, fun h => absurd (run.symm.trans h) (by decide), spare, recovery⟩,
    tail, writing, fun o busy => ?_⟩
  · have balanced := balance (live.imp id .inl)
    rw [← reserved, ← written, ← spills] at balanced
    exact balanced
  · have bounded := bound (closing_ne_idle live)
    rw [← reserved, ← written] at bounded
    exact bounded
  · simp only [serial]; exact tags
  · obtain ⟨a, b, c, d, f, g, i⟩ := ops o busy
    refine ⟨a, b, c, d, f, fun k h => ?_, i⟩
    rcases live with l | l <;> exact absurd (l.symm.trans (g k h).1) (by decide)

/-- A classification keeps the order of work, whatever it comes to. -/
theorem Classified.workLaw (h : Classified s t) (law : s.workLaw) : t.workLaw := by
  cases h with
  | nothing | held | waits | completed | refused => exact law
  | doomed r x free live => exact workLaw_epoch (s := s) law (.inl live) _ (.inr (.inl rfl)) rfl rfl rfl rfl
  | plain r x => exact workLaw_join (s := s.completeHost 0) law (queueEntryOf r x none none) rfl (.inl rfl)
  | hit r x cls width policy free loaded room place live =>
    exact workLaw_join (s := s.completeHost 0) law (queueEntryOf r x (some s.epoch.serial) none) rfl (.inr ⟨rfl, live⟩)
  | claimed r x cls width policy free loaded room place live apart left =>
    have joined := fun set spills => workLaw_claim (s := s.completeHost 0) law
      (queueEntryOf r x (some s.epoch.serial)
        (some { sequence := s.epoch.reserved, spill := decide (Config.setCapacity ≤ s.loggedSet.length) }))
      set spills live left rfl rfl nofun rfl
    unfold State.reserve
    split
    · exact joined _ _ (by simp; omega)
    · exact joined _ _ (by simp; omega)

/-! ## The run -/

theorem workLaw_phase (law : s.workLaw) (p : RollbackPhase) (spare : p = .idle ↔ s.rollback.phase = .idle)
    (close : s.rollback.run = .recovery → p ≠ .close)
    (ops : ∀ op, s.port.op = some op →
      (op.kind = .rollbackRead → p = .read) ∧ (op.kind = .restore → ∃ block words, p = .restore block words) ∧
        ∀ c, op.kind = .abortAnchor c → p = .close) : ({ s with rollback.phase := p } : State).workLaw := by
  obtain ⟨order, idle, balance, bound, ⟨back, head, abort, rest, recovery⟩, ⟨tail, writing, were⟩⟩ := law
  refine ⟨order, idle, balance, bound,
    ⟨back, head, abort, rest.trans spare.symm, fun run => ⟨(recovery run).1, close run⟩⟩, tail, writing, fun o busy => ?_⟩
  obtain ⟨a, b, -, -, e, f, g⟩ := were o busy
  obtain ⟨read, restore, anchor⟩ := ops o busy
  exact ⟨a, b, read, restore, e, f, fun c kind => ⟨(g c kind).1, anchor c kind, (g c kind).2.2⟩⟩

/-- The operation in progress needs the phase its run is in. -/
theorem run_of_op (law : s.workLaw) (busy : s.port.op = some op) :
    (op.kind = .rollbackRead → s.rollback.phase = .read) ∧
      (op.kind = .restore → ∃ block words, s.rollback.phase = .restore block words) ∧
        ∀ c, op.kind = .abortAnchor c → s.rollback.phase = .close := by
  obtain ⟨-, -, -, -, -, ⟨-, -, ops⟩⟩ := law
  obtain ⟨-, -, read, restore, -, -, anchor⟩ := ops op busy
  exact ⟨read, restore, fun c kind => (anchor c kind).2.1⟩

theorem workLaw_pauseRun (law : s.workLaw) : s.pauseRun.workLaw := by
  have pause : s.rollback.phase ≠ .idle → (∀ block words, s.rollback.phase ≠ .restore block words) →
      (∀ op, s.port.op = some op → op.kind ≠ .rollbackRead ∧ ∀ c, op.kind ≠ .abortAnchor c) →
      ({ s with rollback.phase := .paused } : State).workLaw := by
    intro run free other
    refine workLaw_phase law .paused (by simp [run]) (by simp) fun op busy => ?_
    refine ⟨fun kind => absurd kind (other op busy).1, fun kind => ?_, fun c kind => absurd kind ((other op busy).2 c)⟩
    obtain ⟨block, words, phase⟩ := (run_of_op law busy).2.1 kind
    exact absurd phase (free block words)
  unfold State.pauseRun
  split
  next phase =>
    split
    · exact law
    next free =>
      refine pause (by simp [phase]) (by simp [phase]) fun op busy => ⟨fun kind => free ?_, fun c kind => ?_⟩
      · simp [State.performing, busy, OpKind.isRollbackRead, kind]
      · simp [(run_of_op law busy).2.2 c kind] at phase
  next phase =>
    split
    · exact law
    next free =>
      refine pause (by simp [phase]) (by simp [phase]) fun op busy => ⟨fun kind => ?_, fun c kind => free ?_⟩
      · simp [(run_of_op law busy).1 kind] at phase
      · simp [State.performing, busy, OpKind.isAbortAnchor, kind]
  all_goals exact law

theorem workLaw_resumeRun (law : s.workLaw) : s.resumeRun.workLaw := by
  unfold State.resumeRun
  split
  next phase =>
    obtain ⟨-, -, -, -, ⟨-, -, -, -, recovery⟩, -⟩ := id law
    refine workLaw_phase law _ (by rw [phase]; split <;> simp) (fun run => ?_) fun op busy => ?_
    · have := (recovery run).1
      rw [if_neg (by omega)]
      exact nofun
    · obtain ⟨read, restore, anchor⟩ := run_of_op law busy
      simp only [phase, reduceCtorEq, imp_false, exists_false] at read restore anchor
      exact ⟨fun kind => absurd kind read, fun kind => absurd kind restore, fun c kind => absurd kind (anchor c)⟩
  · exact law

/-- The run of an abort starts once no append is in flight (R15, R65). -/
theorem workLaw_startAbortRun (law : s.workLaw) : s.startAbortRun.workLaw := by
  have order : s.startAbortRun.startOrder := by
    refine startOrder_iff.2 ⟨startSteps_startAbortRun (startOrder_iff.1 law.1).1, ?_⟩
    rw [startAbortRun_changes]
    exact (startOrder_iff.1 law.1).2
  obtain ⟨-, idle, balance, ⟨bound, tags, owes⟩, ⟨back, head, abort, spare, recovery⟩, ⟨tail, writing, ops⟩⟩ := id law
  unfold State.startAbortRun at order ⊢
  split
  next starts =>
    obtain ⟨rolls, run, flight⟩ := starts
    rw [if_pos ⟨rolls, run, flight⟩] at order
    have phase := spare.1 run
    have moving : startPhase s.control.hold s.epoch.written ≠ .idle := by
      unfold startPhase
      split <;> (try split) <;> simp
    obtain ⟨le, room, here⟩ := bound (by simp [rolls])
    refine ⟨order, fun h => absurd (rolls.symm.trans h) (by decide), fun h => ?_,
      ⟨fun _ => ⟨le_rfl, le.trans room, here⟩, tags, owes⟩,
      ⟨back, fun _ on => absurd (flight.symm.trans on) (by decide), fun _ => ⟨rolls, flight, rfl⟩, by simp [moving], nofun⟩,
      tail, writing, fun o busy => ?_⟩
    · simp [rolls] at h
    · obtain ⟨read, restore, anchor⟩ := run_of_op law busy
      simp only [phase, reduceCtorEq, imp_false, exists_false] at read restore anchor
      obtain ⟨a, b, -, -, e, f, -⟩ := ops o busy
      exact ⟨a, b, fun kind => absurd kind read, fun kind => absurd kind restore, e, f, fun c kind => absurd kind (anchor c)⟩
  · exact law

theorem workLaw_finishRecord (law : s.workLaw) (free : s.port.op = none) (moving : s.rollback.run ≠ .none) :
    s.finishRecord.workLaw := by
  have order : s.finishRecord.startOrder :=
    startOrder_iff.2 ⟨startSteps_finishRecord (startOrder_iff.1 law.1).1, by rw [finishRecord_changes]; simp [free]⟩
  obtain ⟨-, idle, balance, bound, ⟨back, head, abort, spare, recovery⟩, ⟨tail, writing, -⟩⟩ := law
  have gone : ∀ {P : Operation → Prop} op, s.port.op = some op → P op := fun op busy => nomatch free.symm.trans busy
  unfold State.finishRecord at order ⊢
  split
  next last =>
    rw [if_pos last] at order
    split
    next run =>
      rw [run] at order
      have step := order.2.1
      refine ⟨order, idle, balance, ⟨fun live => ?_, bound.2⟩, ⟨back, head, nofun, by simp, nofun⟩, tail, writing, gone⟩
      exact bound.1 live
    next run =>
      rw [run] at order
      refine ⟨order, idle, balance, bound, ⟨back, head, abort, ?_, fun r => absurd (run.symm.trans r) (by decide)⟩,
        tail, writing, gone⟩
      simp only [run, reduceCtorEq, false_iff]
      split <;> exact nofun
    next run => exact absurd run moving
  next more =>
    rw [if_neg more] at order
    refine ⟨order, idle, balance, bound, ⟨back, head, abort, ?_, fun _ => ⟨Nat.one_le_iff_ne_zero.2 more, ?_⟩⟩,
      tail, writing, gone⟩
    · simp only [moving, false_iff]
      split <;> exact nofun
    · split <;> exact nofun

theorem workLaw_endRun (law : s.workLaw) (free : s.port.op = none) : s.endRun.workLaw := by
  obtain ⟨order, idle, balance, bound, ⟨back, head, abort, spare, recovery⟩, ⟨tail, writing, -⟩⟩ := law
  exact ⟨⟨order.1, order.2.1, nofun, order.2.2.2⟩, idle, balance, bound, ⟨back, head, nofun, by simp [State.endRun], nofun⟩, tail, writing,
    fun op busy => nomatch free.symm.trans busy⟩

/-- A recovery run starts before READY, with at least one record (R66, R141). -/
theorem workLaw_startRecoveryRun (law : s.workLaw) (free : s.port.op = none) (step : s.control.step = .scan) (n : Nat)
    (found : n ≠ 0) : (s.startRecoveryRun n).workLaw := by
  obtain ⟨⟨starting, ready, -, -⟩, idle, balance, ⟨bound, tags, owes⟩, ⟨back, head, abort, -, -⟩, ⟨tail, writing, -⟩⟩ := id law
  have early : s.control.device ≠ .ready := fun here => by simp [ready.1 here] at step
  have asleep := idle_of_early law early
  have moving : (if s.control.hold then RollbackPhase.paused else .read) ≠ .idle ∧
      (if s.control.hold then RollbackPhase.paused else .read) ≠ .close := by split <;> simp
  refine ⟨⟨?_, ?_, fun _ => rfl, fun op busy => nomatch free.symm.trans busy⟩, idle, balance, ⟨bound, tags, owes⟩,
    ⟨back, head, nofun, ?_, fun _ => ⟨Nat.one_le_iff_ne_zero.2 found, moving.2⟩⟩, tail, writing,
    fun op busy => nomatch free.symm.trans busy⟩
  · simpa [State.startRecoveryRun, step] using starting
  · simpa [State.startRecoveryRun] using early
  · simp [State.startRecoveryRun, moving.1]

/-! ## The head of the queue -/

/-- The sequences owed by a list of entries, head first. -/
def owedBy (q : List QueueEntry) : List Nat := (q.filter QueueEntry.owes).map QueueEntry.sequence

theorem owedBy_cons (e : QueueEntry) (q : List QueueEntry) :
    owedBy (e :: q) = if e.owes then e.sequence :: owedBy q else owedBy q := by
  unfold owedBy
  rw [List.filter_cons]
  split <;> rfl

theorem owedSequences_eq (s : State) : s.owedSequences = owedBy s.host.queue := rfl

/-- Entries of no epoch owe no record. -/
theorem owedBy_untagged {q : List QueueEntry} (owes : ∀ e ∈ q, e.owes = true → e.tag ≠ none ∧ e.append ≠ none)
    (tags : ∀ e ∈ q, e.tag = none) : owedBy q = [] := by
  unfold owedBy
  rw [List.filter_eq_nil_iff.2 fun e here own => (owes e here own).1 (tags e here)]
  rfl

/-- An entry that waits is not under way. -/
theorem head_waits {q : List QueueEntry} (waits : ∀ e ∈ q, e.progress = .appendWaiting ∨ e.progress = .writeWaiting)
    (p : Progress) (under : p = .appendInFlight ∨ p = .writeInProgress) :
    q.head?.any (fun e => e.progress == p) = false := by
  cases q with
  | nil => rfl
  | cons head rest =>
    rcases under with rfl | rfl <;> rcases waits head (List.mem_cons_self ..) with w | w <;> simp [w]

variable {head : QueueEntry} {rest : List QueueEntry}

theorem headProgress_cons (queue : s.host.queue = head :: rest) (p : Progress) :
    s.headProgress p = { s with host.queue := { head with progress := p } :: rest } := by
  simp only [State.headProgress, queue]

theorem appendInFlight_cons (queue : s.host.queue = head :: rest) :
    s.appendInFlight = (head.progress == .appendInFlight) := by rw [appendInFlight_eq, queue]; rfl

theorem writeInProgress_cons (queue : s.host.queue = head :: rest) :
    s.writeInProgress = (head.progress == .writeInProgress) := by rw [State.writeInProgress, queue]; rfl

/-- Only the head makes progress: an append in flight is the head's. -/
theorem head_of_flight (flight : s.appendInFlight = true) :
    ∃ head rest, s.host.queue = head :: rest ∧ head.progress = .appendInFlight := by
  unfold State.appendInFlight at flight
  split at flight
  next head rest queue => exact ⟨head, rest, queue, by simpa using flight⟩
  · cases flight

theorem head_of_writing (writing : s.writeInProgress = true) :
    ∃ head rest, s.host.queue = head :: rest ∧ head.progress = .writeInProgress := by
  unfold State.writeInProgress at writing
  cases queue : s.host.queue with
  | nil => simp [queue] at writing
  | cons head rest => exact ⟨head, rest, rfl, by simpa [queue] using writing⟩

/-- In IDLE no entry owes a record; in ROLLING_BACK none waits to begin its append (R14, R113). -/
theorem epoch_of_owing (law : s.workLaw) (queue : s.host.queue = head :: rest) (owes : head.owes = true) :
    s.epoch.state ≠ .idle ∧ (head.progress = .appendWaiting → s.epoch.state ≠ .rollingBack) := by
  obtain ⟨-, idle, -, ⟨-, -, own⟩, ⟨back, -, -, -, -⟩, -⟩ := law
  have tagged := (own head (by simp [queue]) owes).1
  refine ⟨fun asleep => tagged ((idle asleep).2.2.2.2.2.2.2 head (by simp [queue])), fun waits rolls => ?_⟩
  have := (back rolls).2.1 head (by simp [queue]) tagged
  simp [QueueEntry.underWay, waits] at this

/-- The head begins its append (R43, R111): its epoch is not in ROLLING_BACK. -/
theorem workLaw_appendStarts (law : s.workLaw) (queue : s.host.queue = head :: rest)
    (waits : head.progress = .appendWaiting) (port : Port) (busy : port.op = some op) (kind : op.kind = .appendRead) :
    ({ s with port := port, host.queue := { head with progress := .appendInFlight } :: rest } : State).workLaw := by
  obtain ⟨awake, forward⟩ := epoch_of_owing law queue (by simp [QueueEntry.owes, waits])
  have run := run_none law awake (forward waits)
  obtain ⟨⟨starting, ready, recovery, -⟩, -, balance, ⟨bound, tags, owes⟩, ⟨-, -, -, spare, -⟩, ⟨tail, -, -⟩⟩ := law
  have owed : ({ s with port := port, host.queue := { head with progress := .appendInFlight } :: rest } :
      State).owedSequences = s.owedSequences := by
    simp [owedSequences_eq, queue, owedBy_cons, QueueEntry.owes, waits, QueueEntry.sequence]
  rw [queue] at tags owes tail
  simp only [List.mem_cons, forall_eq_or_imp] at tags owes
  refine ⟨⟨starting, ready, recovery, by simp [busy, kind]⟩, fun h => absurd h awake, fun h => ?_,
    ⟨bound, ?_, ?_⟩, ⟨fun h => absurd h (forward waits), fun h => absurd h (forward waits),
      fun h => absurd (run.symm.trans h) (by decide), spare, fun h => absurd (run.symm.trans h) (by decide)⟩,
    tail, ?_, ?_⟩
  · rw [owed]; exact balance h
  · simpa using tags
  · simpa [QueueEntry.owes, waits] using owes
  · simp [State.writeInProgress]
  · simp [busy, kind, State.appendInFlight]

/-- The head begins its word write (R111): in ROLLING_BACK it is of no epoch. -/
theorem workLaw_writeStarts (law : s.workLaw) (queue : s.host.queue = head :: rest)
    (waits : head.progress = .writeWaiting) (port : Port) (busy : port.op = some op) (kind : op.kind = .queueWrite) :
    ({ s with port := port, host.queue := { head with progress := .writeInProgress } :: rest } : State).workLaw := by
  have flight : ({ s with port := port, host.queue := { head with progress := .writeInProgress } :: rest } :
      State).appendInFlight = s.appendInFlight := by
    rw [appendInFlight_cons queue, waits]; rfl
  have owed : ({ s with port := port, host.queue := { head with progress := .writeInProgress } :: rest } :
      State).owedSequences = s.owedSequences := by
    simp [owedSequences_eq, queue, owedBy_cons, QueueEntry.owes, waits]
  obtain ⟨⟨starting, ready, recovery, -⟩, idle, balance, ⟨bound, tags, owes⟩, ⟨back, flying, abort, spare, run⟩,
    ⟨tail, -, -⟩⟩ := law
  unfold State.idleClean at idle
  rw [queue] at idle tags owes back tail
  simp only [List.mem_cons, forall_eq_or_imp] at idle tags owes
  refine ⟨⟨starting, ready, recovery, by simp [busy, kind]⟩, fun h => ?_, fun h => ?_, ⟨bound, ?_, ?_⟩,
    ⟨fun h => ⟨(back h).1, ?_, ?_⟩, ?_, ?_, spare, run⟩, tail, ?_, ?_⟩
  · simpa using idle h
  · rw [owed]; exact balance h
  · simpa using tags
  · simpa [QueueEntry.owes] using owes.2
  · simp [QueueEntry.underWay]
  · rw [owed, flight]; exact (back h).2.2
  · rw [flight]; exact flying
  · rw [flight]; exact abort
  · exact fun _ => ⟨op, busy, kind⟩
  · simp [busy, kind, State.writeInProgress]

/-- The head leaves the queue once it owes nothing and its operation has ended (R111, R113). -/
theorem workLaw_pop (law : s.workLaw) (queue : s.host.queue = head :: rest) (paid : head.owes = false)
    (port : Port) (free : port.op = none) : ({ s with port := port, host.queue := rest } : State).workLaw := by
  obtain ⟨⟨starting, ready, recovery, -⟩, idle, balance, ⟨bound, tags, owes⟩, ⟨back, flying, abort, spare, run⟩,
    ⟨tail, -, -⟩⟩ := law
  have before : s.appendInFlight = false := by
    rw [appendInFlight_cons queue]
    simp only [QueueEntry.owes, Bool.or_eq_false_iff] at paid
    exact paid.2
  have owed : ({ s with port := port, host.queue := rest } : State).owedSequences = s.owedSequences := by
    simp [owedSequences_eq, queue, owedBy_cons, paid]
  unfold State.idleClean at idle
  rw [queue] at idle tags owes back tail
  have flight : ({ s with port := port, host.queue := rest } : State).appendInFlight = s.appendInFlight := by
    rw [before, appendInFlight_eq]; exact head_waits tail _ (.inl rfl)
  simp only [List.mem_cons, forall_eq_or_imp] at idle tags owes
  refine ⟨⟨starting, ready, recovery, by simp [free]⟩, fun h => ?_, fun h => ?_, ⟨bound, tags.2, owes.2⟩,
    ⟨fun h => ⟨fun e here => (back h).1 e (List.mem_of_mem_tail here), fun e first tagged => ?_, ?_⟩, ?_, ?_, spare, run⟩,
    fun e here => tail e (List.mem_of_mem_tail here), fun h => ?_, by simp [free]⟩
  · obtain ⟨a, b, c, d, e, f, g, q⟩ := idle h
    exact ⟨a, b, c, d, e, f, g, q.2⟩
  · rw [owed]; exact balance h
  · exact absurd ((back h).1 e (List.mem_of_mem_head? first)) tagged
  · rw [owed, flight]; exact (back h).2.2
  · rw [flight]; exact flying
  · rw [flight]; exact abort
  · exact absurd (h.symm.trans (head_waits tail _ (.inr rfl))) (by decide)

/-- The head whose append is in flight owes the first record owed. -/
theorem owed_of_flight (queue : s.host.queue = head :: rest) (flies : head.progress = .appendInFlight) :
    s.owedSequences = head.sequence :: owedBy rest := by
  simp [owedSequences_eq, queue, owedBy_cons, QueueEntry.owes, flies]

/-- The record of the head is in its slot (R45): written rises, and the head owes nothing more. -/
theorem workLaw_recorded (law : s.workLaw) (queue : s.host.queue = head :: rest)
    (flies : head.progress = .appendInFlight) (forward : s.epoch.state ≠ .rollingBack) (free : s.port.op = none)
    (set : List SetEntry) (length : set.length = s.loggedSet.length) :
    ({ s with
      epoch.written := s.epoch.written + 1
      loggedSet := set
      host.queue := { head with progress := .writeWaiting } :: rest } : State).workLaw := by
  have awake := (epoch_of_owing law queue (by simp [QueueEntry.owes, flies])).1
  have run := run_none law awake forward
  obtain ⟨order, -, balance, ⟨bound, tags, owes⟩, ⟨-, -, -, spare, -⟩, ⟨tail, -, -⟩⟩ := law
  have live : s.epoch.state = .opened ∨ s.epoch.state = .doomed ∨ s.epoch.state = .closing := by
    cases state : s.epoch.state <;> simp_all
  obtain ⟨count, owed⟩ := balance live
  obtain ⟨le, room, ready, format⟩ := bound awake
  rw [owed_of_flight queue flies] at owed
  obtain ⟨left, more⟩ : ∃ n, s.epoch.reserved - s.epoch.written = n + 1 := by
    cases gap : s.epoch.reserved - s.epoch.written with
    | zero => simp [gap] at owed
    | succ n => exact ⟨n, rfl⟩
  rw [more, List.range'_succ, List.cons.injEq] at owed
  rw [queue] at tags owes tail
  simp only [List.mem_cons, forall_eq_or_imp] at tags owes
  refine ⟨order, fun h => absurd h awake, fun _ => ⟨?_, ?_⟩, ⟨fun _ => ⟨?_, room, ready, format⟩, ?_, ?_⟩,
    ⟨fun h => absurd h forward, fun h => absurd h forward, fun h => absurd (run.symm.trans h) (by decide), spare,
      fun h => absurd (run.symm.trans h) (by decide)⟩, tail, ?_, by simp [free]⟩
  · rw [length]; exact count
  · rw [owedSequences_eq]
    simp only [owedBy_cons, QueueEntry.owes, show s.epoch.reserved - (s.epoch.written + 1) = left by omega]
    exact owed.2
  · simp only; omega
  · simpa using tags
  · simpa [QueueEntry.owes] using owes.2
  · simp [State.writeInProgress]

/-- The record of a cancelled head is in its slot, and the head leaves the queue (R14, R113). -/
theorem workLaw_cancelledRecord (law : s.workLaw) (queue : s.host.queue = head :: rest)
    (flies : head.progress = .appendInFlight) (rolls : s.epoch.state = .rollingBack) (free : s.port.op = none)
    (set : List SetEntry) :
    ({ s with epoch.written := s.epoch.written + 1, loggedSet := set, host.queue := rest } : State).workLaw := by
  have flight : s.appendInFlight = true := by rw [appendInFlight_cons queue, flies]; rfl
  obtain ⟨order, -, -, ⟨bound, tags, owes⟩, ⟨back, flying, abort, spare, recovery⟩, ⟨tail, -, -⟩⟩ := law
  obtain ⟨le, room, ready, format⟩ := bound (by simp [rolls])
  have left := flying rolls flight
  obtain ⟨untagged, -, owed⟩ := back rolls
  rw [owed_of_flight queue flies, if_pos flight, List.cons.injEq] at owed
  have lands := head_waits tail .appendInFlight (.inl rfl)
  have writes := head_waits tail .writeInProgress (.inr rfl)
  rw [queue] at tags owes tail untagged lands writes
  have landed : ({ s with epoch.written := s.epoch.written + 1, loggedSet := set, host.queue := rest } :
      State).appendInFlight = false := (appendInFlight_eq _).trans lands
  have run : s.rollback.run ≠ .abort := fun h => absurd ((abort h).2.1.symm.trans flight) (by decide)
  refine ⟨order, fun h => absurd (rolls.symm.trans h) (by decide), fun h => ?_,
    ⟨fun _ => ⟨left, room, ready, format⟩, fun e here => tags e (List.mem_cons_of_mem _ here),
      fun e here => owes e (List.mem_cons_of_mem _ here)⟩,
    ⟨fun _ => ⟨fun e here => untagged e (List.mem_of_mem_tail here), fun e first tagged => ?_, ?_⟩, ?_,
      fun h => absurd h run, spare, recovery⟩,
    fun e here => tail e (List.mem_of_mem_tail here), fun h => ?_, by simp [free]⟩
  · simp [rolls] at h
  · exact absurd (untagged e (List.mem_of_mem_head? first)) tagged
  · rw [landed]; exact owed.2
  · rw [landed]; exact nofun
  · exact absurd (h.symm.trans writes) (by decide)

/-! ## The epoch's beginning and end -/

/-- An epoch begins with nothing reserved (R3). -/
theorem workLaw_begin (law : s.workLaw) (ready : s.control.device = .ready) (idle : s.epoch.state = .idle)
    (format : s.journal.format = none) (runs : Bool) :
    ({ s with epoch := { state := .opened, serial := s.epoch.serial, ageRunning := runs } } : State).workLaw := by
  have untagged := step_of_idle_entries law idle
  obtain ⟨order, clean, -, ⟨-, tags, owes⟩, ⟨-, -, abort, spare, recovery⟩, ⟨tail, writing, ops⟩⟩ := law
  obtain ⟨-, -, -, -, -, empty, -⟩ := clean idle
  refine ⟨order, nofun, fun _ => ⟨?_, ?_⟩, ⟨fun _ => ⟨le_rfl, Nat.zero_le _, ready, format⟩, tags, owes⟩,
    ⟨nofun, nofun, fun h => ?_, spare, recovery⟩, tail, writing, fun op busy => ?_⟩
  · simp [empty]
  · exact owedBy_untagged owes untagged
  · exact absurd (idle.symm.trans (abort h).1) (by decide)
  · obtain ⟨a, b, c, d, e, f, g⟩ := ops op busy
    exact ⟨a, b, c, d, e, fun k h => absurd (idle.symm.trans (f k h).1) (by decide), g⟩

/-- An epoch whose entries have left the queue reaches IDLE (R13). -/
theorem workLaw_atIdle (law : s.workLaw) (free : s.port.op = none) (run : s.rollback.run ≠ .abort)
    (clean : ∀ e ∈ s.host.queue, e.tag = none) : s.atIdle.workLaw := by
  obtain ⟨order, -, -, ⟨-, tags, owes⟩, ⟨-, -, -, spare, recovery⟩, ⟨tail, writing, -⟩⟩ := law
  refine ⟨order, fun _ => ⟨rfl, rfl, rfl, rfl, rfl, rfl, rfl, clean⟩, fun h => ?_,
    ⟨fun h => absurd rfl h, fun e here => .inl (clean e here), owes⟩, ⟨nofun, nofun, fun h => absurd h run, spare, recovery⟩,
    tail, writing, fun op busy => nomatch free.symm.trans busy⟩
  simp [State.atIdle] at h

/-! ## The cancellation -/

/-- What the cancellation keeps of a queue whose entries are of the epoch or of none: entries of none, behind the head when
it is of none or under way (R113). -/
theorem cancelQueue_cases {serial : Serial} (tags : ∀ e ∈ head :: rest, e.tag = none ∨ e.tag = some serial) :
    ∃ kept : List QueueEntry, (∀ e ∈ kept, e ∈ rest ∧ e.tag = none) ∧
      (cancelQueue serial (head :: rest) = head :: kept ∧ (head.tag ≠ none → head.underWay = true) ∨
        cancelQueue serial (head :: rest) = kept ∧ head.underWay = false) := by
  refine ⟨rest.filter (fun e => !e.taggedWith serial), fun e here => ?_, ?_⟩
  · obtain ⟨here, other⟩ := List.mem_filter.1 here
    refine ⟨here, (tags e (List.mem_cons_of_mem _ here)).resolve_right fun same => ?_⟩
    simp [QueueEntry.taggedWith, same] at other
  · simp only [cancelQueue]
    split
    next gone =>
      simp only [Bool.and_eq_true, Bool.not_eq_true'] at gone
      exact .inr ⟨rfl, gone.2⟩
    next stays =>
      refine .inl ⟨rfl, fun tagged => ?_⟩
      have own := (tags head (by simp)).resolve_left tagged
      simpa [QueueEntry.taggedWith, own] using stays

theorem progress_of_not_underWay {e : QueueEntry} (h : e.underWay = false) :
    (e.progress == .appendInFlight) = false ∧ (e.progress == .writeInProgress) = false := by
  simpa only [QueueEntry.underWay, Bool.or_eq_false_iff] using h

/-- An epoch rolls back from OPEN or DOOMED with a queue that keeps none of its entries but a head under way. -/
theorem workLaw_rollsBack (law : s.workLaw) (live : s.epoch.state = .opened ∨ s.epoch.state = .doomed)
    (q : List QueueEntry) (within : ∀ e ∈ q, e ∈ s.host.queue)
    (behind : ∀ e ∈ q.tail, e.tag = none ∧ e ∈ s.host.queue.tail)
    (first : ∀ e, q.head? = some e → e.tag ≠ none → e.underWay = true)
    (flight : q.head?.any (fun e => e.progress == .appendInFlight) = s.appendInFlight)
    (writes : q.head?.any (fun e => e.progress == .writeInProgress) = s.writeInProgress)
    (owed : owedBy q = if s.appendInFlight then [s.epoch.written] else [])
    (more : s.appendInFlight = true → s.epoch.written < s.epoch.reserved) :
    ({ s with epoch := { s.epoch with state := .rollingBack, ageRunning := false }, host.queue := q } : State).workLaw := by
  have awake := closing_ne_idle live
  have run := run_none law awake (by rcases live with h | h <;> simp [h])
  obtain ⟨order, -, -, ⟨bound, tags, owes⟩, ⟨-, -, -, spare, -⟩, ⟨tail, writing, ops⟩⟩ := law
  have closing : s.epoch.state ≠ .closing := by rcases live with h | h <;> simp [h]
  refine ⟨order, nofun, fun h => by simp at h, ⟨fun _ => bound awake, fun e here => tags e (within e here),
      fun e here => owes e (within e here)⟩,
    ⟨fun _ => ⟨fun e here => (behind e here).1, first, ?_⟩, fun _ on => more ?_,
      fun h => absurd (run.symm.trans h) (by decide), spare, fun h => absurd (run.symm.trans h) (by decide)⟩,
    fun e here => tail e (behind e here).2, fun h => writing (writes.symm.trans h), fun op busy => ?_⟩
  · rw [appendInFlight_eq]
    simp only [flight]
    exact owed
  · rw [appendInFlight_eq] at on
    exact flight.symm.trans on
  · obtain ⟨a, b, c, d, f, g, i⟩ := ops op busy
    rw [appendInFlight_eq]
    exact ⟨fun k => writes.trans (a k), fun k => flight.trans (b k), c, d, f, fun k h => absurd (g k h).1 closing,
      fun k h => absurd (run.symm.trans (i k h).1) (by decide)⟩

/-- The cancellation leaves of the epoch's entries at most a head under way, which owes the next record if any (R14). -/
theorem workLaw_cancelled (law : s.workLaw) (live : s.epoch.state = .opened ∨ s.epoch.state = .doomed) :
    (cancelled s).workLaw := by
  have rolls := workLaw_rollsBack law live
  obtain ⟨-, -, balance, ⟨-, tags, owes⟩, -, ⟨tail, -, -⟩⟩ := law
  obtain ⟨-, owed⟩ := balance (live.imp id .inl)
  unfold cancelled
  cases queue : s.host.queue with
  | nil =>
    have still : s.appendInFlight = false := by rw [appendInFlight_eq, queue]; rfl
    refine rolls [] nofun nofun nofun still.symm ?_ (by rw [still]; rfl) (by simp [still])
    rw [State.writeInProgress, queue]
  | cons head rest =>
    rw [queue] at rolls tags owes tail
    rw [owedSequences_eq, queue, owedBy_cons] at owed
    rw [appendInFlight_cons queue, writeInProgress_cons queue] at rolls
    obtain ⟨kept, untagged, ⟨same, under⟩ | ⟨same, waits⟩⟩ := cancelQueue_cases tags <;> rw [same]
    · have within : ∀ e ∈ head :: kept, e ∈ head :: rest := by
        intro e here
        rcases List.mem_cons.1 here with rfl | here
        · exact List.mem_cons_self ..
        · exact List.mem_cons_of_mem _ (untagged e here).1
      have nothing : owedBy kept = [] :=
        owedBy_untagged (fun e here => owes e (List.mem_cons_of_mem _ (untagged e here).1)) fun e here => (untagged e here).2
      have owing : (head.progress == .appendInFlight) = head.owes := by
        cases w : head.progress with
        | appendWaiting =>
          have tagged := (owes head (List.mem_cons_self ..) (by simp [QueueEntry.owes, w])).1
          simp [QueueEntry.underWay, w] at under
          exact absurd under tagged
        | _ => simp [QueueEntry.owes, w]
      refine rolls _ within (fun e here => ⟨(untagged e here).2, (untagged e here).1⟩) ?_ rfl rfl ?_ ?_
      · intro e first; cases first; exact under
      · rw [owedBy_cons, nothing, owing]
        split
        next own =>
          rw [if_pos own] at owed
          cases gap : s.epoch.reserved - s.epoch.written with
          | zero => simp [gap] at owed
          | succ n =>
            rw [gap, List.range'_succ, List.cons.injEq] at owed
            rw [owed.1]
        · rfl
      · rw [owing]
        intro own
        rw [if_pos own] at owed
        by_contra settled
        simp [Nat.sub_eq_zero_of_le (not_lt.1 settled)] at owed
    · have within : ∀ e ∈ kept, e ∈ head :: rest := fun e here => List.mem_cons_of_mem _ (untagged e here).1
      obtain ⟨still, quiet⟩ := progress_of_not_underWay waits
      have calm : ∀ e ∈ kept, e.progress = .appendWaiting ∨ e.progress = .writeWaiting :=
        fun e here => tail e (untagged e here).1
      refine rolls _ within (fun e here => ?_) ?_ ?_ ?_ ?_ ?_
      · have here := List.mem_of_mem_tail here
        exact ⟨(untagged e here).2, (untagged e here).1⟩
      · exact fun e first tagged => absurd (untagged e (List.mem_of_mem_head? first)).2 tagged
      · rw [still]; exact head_waits calm _ (.inl rfl)
      · rw [quiet]; exact head_waits calm _ (.inr rfl)
      · rw [still]
        exact owedBy_untagged (fun e here => owes e (within e here)) fun e here => (untagged e here).2
      · rw [still]; exact nofun

/-! ## Grants -/

/-- The epoch's entries have left the queue where the commit anchor is asked (R11). -/
theorem drained_untagged (law : s.workLaw) (drained : s.drained = true) :
    s.epoch.state = .closing ∧ ∀ e ∈ s.host.queue, e.tag = none := by
  simp only [State.drained, Bool.and_eq_true, beq_iff_eq, Bool.not_eq_true', List.any_eq_false,
    QueueEntry.taggedWith] at drained
  obtain ⟨-, -, -, ⟨-, tags, -⟩, -⟩ := law
  exact ⟨drained.1, fun e here => (tags e here).resolve_right (drained.2 e here)⟩

/-- A run in its last phase has no record of its epoch left in the queue (R14, R15). -/
theorem closed_untagged (law : s.workLaw) (free : s.port.op = none) (phase : s.rollback.phase = .close) :
    s.rollback.run = .abort ∧ ∀ e ∈ s.host.queue, e.tag = none := by
  obtain ⟨-, -, -, -, ⟨back, -, abort, spare, recovery⟩, ⟨tail, writing, -⟩⟩ := law
  have run : s.rollback.run = .abort := by
    cases run : s.rollback.run with
    | none => exact absurd (phase.symm.trans (spare.1 run)) (by decide)
    | recovery => exact absurd phase (recovery run).2
    | abort => rfl
  obtain ⟨rolls, flight, -⟩ := abort run
  obtain ⟨untagged, first, -⟩ := back rolls
  refine ⟨run, ?_⟩
  cases queue : s.host.queue with
  | nil => exact nofun
  | cons head rest =>
    rw [queue] at untagged first
    intro e here
    rcases List.mem_cons.1 here with rfl | here
    · by_contra tagged
      have under := first e rfl tagged
      have lands := (appendInFlight_cons queue).symm.trans flight
      have writes : s.writeInProgress = true := by
        rw [writeInProgress_cons queue]
        simpa [QueueEntry.underWay, lands] using under
      obtain ⟨op, busy, -⟩ := writing writes
      exact nomatch free.symm.trans busy
    · exact untagged e here

/-- What the order of work asks of the owner of an operation in progress. -/
def owned (s : State) (k : OpKind) : Prop :=
  (k = .queueWrite → s.writeInProgress = true) ∧ (k = .appendRead ∨ k = .appendWrite → s.appendInFlight = true) ∧
    (k = .rollbackRead → s.rollback.phase = .read) ∧
    (k = .restore → ∃ block words, s.rollback.phase = .restore block words) ∧
    (k = .formatAnchor → s.journal.format ≠ none) ∧
    (∀ c, k = .commitAnchor c → s.epoch.state = .closing ∧ ∀ e ∈ s.host.queue, e.tag = none) ∧
    ∀ c, k = .abortAnchor c → s.rollback.run = .abort ∧ s.rollback.phase = .close ∧ ∀ e ∈ s.host.queue, e.tag = none

theorem owned_of_asked (law : s.workLaw) (free : s.port.op = none) {k : OpKind} (ask : Asked s k)
    (read : k ≠ .appendRead) (write : k ≠ .queueWrite) : owned s k := by
  cases ask with
  | appendRead => exact absurd rfl read
  | queueWrite => exact absurd rfl write
  | appendWrite head rest queue progress => simp [owned, appendInFlight_cons queue, progress]
  | rollbackRead phase => simp [owned, phase]
  | restore block words phase => simp [owned, phase]
  | formatAnchor job format => simp [owned, format]
  | commitAnchor drained => simpa [owned] using drained_untagged law drained
  | abortAnchor phase => simpa [owned, phase] using closed_untagged law free phase
  | _ => simp [owned]

/-- A free port begins an operation whose owner is ready for it. -/
theorem workLaw_granted (law : s.workLaw) (free : s.port.op = none) (port : Port) (busy : port.op = some op)
    (order : startKind s op.kind) (ready : owned s op.kind) : ({ s with port := port } : State).workLaw := by
  obtain ⟨⟨starting, done, recovery, -⟩, idle, balance, bound, rolling, ⟨tail, writing, -⟩⟩ := law
  have only : ∀ o, port.op = some o → o = op := fun o found => Option.some.inj (found.symm.trans busy)
  refine ⟨⟨starting, done, recovery, fun o found => only o found ▸ order⟩, idle, balance, bound, rolling, tail,
    fun h => ?_, fun o found => only o found ▸ ready⟩
  obtain ⟨o, was, -⟩ := writing h
  exact nomatch free.symm.trans was

theorem workLaw_grant (law : s.workLaw) (free : s.port.op = none) {k : OpKind} (next : s.nextGrant = some k) :
    (s.grant k).workLaw := by
  have ask := asked next
  have kind := operationFor_kind s k
  have granted : k ≠ .appendRead → k ≠ .queueWrite →
      ({ s with port := { op := some (s.operationFor k), alternation := k.group.side } } : State).workLaw :=
    fun read write => workLaw_granted law free _ rfl (kind.symm ▸ startKind_of_asked ask)
      (kind.symm ▸ owned_of_asked law free ask read write)
  cases k
  case appendRead =>
    cases ask with
    | appendRead head rest queue progress =>
      have started := workLaw_appendStarts law queue progress
        { op := some (s.operationFor .appendRead), alternation := .device } rfl kind
      simp only [State.grant, State.ownerGranted]
      rw [headProgress_cons (head := head) (rest := rest)]
      exacts [started, queue]
  case queueWrite =>
    cases ask with
    | queueWrite head rest queue progress =>
      have started := workLaw_writeStarts law queue progress
        { op := some (s.operationFor .queueWrite), alternation := .device } rfl kind
      simp only [State.grant, State.ownerGranted]
      rw [headProgress_cons (head := head) (rest := rest)]
      exacts [started, queue]
  case zeroAnchor =>
    simp only [State.grant, State.ownerGranted]
    split <;> exact granted (by simp) (by simp)
  all_goals exact granted (by simp) (by simp)

/-! ## Every change keeps the order of work -/

theorem write_disarm (i : Fin 8) : ∀ op, s.port.op = some op → op.kind = .queueWrite → (s.disarm i).port.op = some op := by
  intro op busy kind
  simp [State.disarm, State.discardArming, busy, kind]

theorem write_formatSwitched :
    ∀ op, s.port.op = some op → op.kind = .queueWrite → (formatSwitched s).port.op = some op := by
  intro op busy kind
  simp [formatSwitched, State.disarmInJournal, State.discardJournalArming, busy, kind]

theorem storeTable_staged (x : RegionTable) (idle : s.epoch.state = .idle) :
    (s.storeTable x).regions.staged = s.regions.staged := by
  simp [State.storeTable, idle]

theorem workLaw_storeTable (law : s.workLaw) (x : RegionTable) : (s.storeTable x).workLaw := by
  rw [storeTable_changes]
  exact workLaw_of_same law law.1
    { op := keepsOp_of_eq rfl
      write := write_of_eq rfl
      staged := fun idle unstaged => (storeTable_staged x idle).trans unstaged }

theorem workLaw_advanceFormat (law : s.workLaw) (free : s.port.op = none) : s.advanceFormat.workLaw := by
  rw [advanceFormat_changes]
  exact workLaw_of_same law law.1
    { op := keepsOp_of_eq rfl
      write := write_of_eq rfl
      format := fun _ spare => by simp [State.advanceFormat, spare]
      job := fun busy => absurd free busy }

/-- The work of IDLE is kept by a completion that moves the journal, the live table and the start-up step. -/
theorem sameWork_idle (idle : s.epoch.state = .idle) {r : Regions} (staged : s.regions.staged = none → r.staged = none)
    (free : s.port.op = none) (j : Journal) (c : Control) (e : Events) :
    SameWork s { s with journal := j, regions := r, control := c, events := e } where
  slots live := absurd idle live
  device live := absurd idle live
  format live := absurd idle live
  job busy := absurd free busy
  staged _ := staged
  op := keepsOp_of_none free
  write := write_of_eq rfl

theorem workLaw_change (law : s.workLaw) (step : Change s t) : t.workLaw := by
  have order := startOrder_change law.1 step
  have same : SameWork s t → t.workLaw := workLaw_of_same law order
  have after := fun {op} => workLaw_afterOp (op := op) law
  have ops : ∀ op, s.port.op = some op → startKind s op.kind ∧ owned s op.kind := by
    intro op busy
    obtain ⟨⟨-, -, -, kinds⟩, -, -, -, -, ⟨-, -, owners⟩⟩ := law
    exact ⟨kinds op busy, owners op busy⟩
  have moving : s.rollback.phase ≠ .idle → s.rollback.run ≠ .none := by
    obtain ⟨-, -, -, -, ⟨-, -, -, spare, -⟩, -⟩ := law
    exact fun phase run => phase (spare.1 run)
  have asleep : s.control.step ≠ .done → s.epoch.state = .idle := fun other =>
    idle_of_early law fun ready => other (law.1.2.1.1 ready)
  cases step with
  | frame | countFree | events | hold | holdRead | restart | save | stageJournal | arm =>
    exact same { op := keepsOp_of_eq rfl, write := write_of_eq rfl }
  | present => exact (classified _).workLaw (s := { s with lines := _ }) law
  | classify => exact (classified s).workLaw law
  | grant k up free next => exact workLaw_grant law free next
  | pauseRun => exact workLaw_pauseRun law
  | age elapsed runs live => exact workLaw_epoch law live _ (live.imp id .inl) rfl rfl rfl rfl
  | begin ready free idle format => exact workLaw_begin law ready idle format _
  | commit free live => exact workLaw_epoch law (.inl live) _ (.inr (.inr rfl)) rfl rfl rfl rfl
  | abort free live => exact workLaw_startAbortRun (workLaw_cancelled law live)
  | startFormat ready free idle =>
    exact same
      { op := keepsOp_of_eq rfl, write := write_of_eq rfl, format := fun live => absurd idle live, job := fun _ _ => nofun }
  | switchFormat drains =>
    have job : s.journal.format ≠ none := fun gone => by simp [State.draining, gone] at drains
    have idle := idle_of_format law job
    exact same
      { op := keepsOp_formatSwitched, write := write_formatSwitched, slots := fun live => absurd idle live
        format := fun live => absurd idle live
        job := fun _ _ gone => job (Option.map_eq_none_iff.1 (show s.journal.format.map _ = none from gone)) }
  | editDescriptor => exact workLaw_storeTable law _
  | editDefaults => exact workLaw_storeTable law _
  | disarm i =>
    rw [disarm_changes] at order ⊢
    exact workLaw_of_same law order { op := fun op busy => keepsOp_disarm i op busy, write := write_disarm i }
  | hostRead op busy kind => exact after busy (by simp [kind])
  | queueWrite op busy kind =>
    obtain ⟨head, rest, queue, writes⟩ := head_of_writing ((ops op busy).2.1 kind)
    have popped := workLaw_pop law queue (by simp [QueueEntry.owes, writes]) { s.port with op := none } rfl
    rw [show rest = s.host.queue.tail by rw [queue]; rfl] at popped
    exact popped
  | appendRead op busy kind => exact after busy (by simp [kind])
  | appendWrite op busy kind forward =>
    obtain ⟨head, rest, queue, flies⟩ := head_of_flight ((ops op busy).2.2.1 (.inr kind))
    have recorded := workLaw_recorded (after busy (by simp [kind])) queue flies forward rfl
      (markLogged (s.afterOp op).headSequence s.loggedSet) (markLogged_length _ _)
    rw [headProgress_cons (s := (s.afterOp op).reportRecord) queue]
    exact recorded
  | cancelledAppend op busy kind back =>
    obtain ⟨head, rest, queue, flies⟩ := head_of_flight ((ops op busy).2.2.1 (.inr kind))
    have recorded := workLaw_cancelledRecord (after busy (by simp [kind])) queue flies back rfl
      (markLogged (s.afterOp op).headSequence s.loggedSet)
    rw [show rest = s.host.queue.tail by rw [queue]; rfl] at recorded
    exact workLaw_startAbortRun recorded
  | foundRecord op busy kind block words =>
    have phase := (ops op busy).2.2.2.1 kind
    exact workLaw_phase (after busy (by simp [kind])) _ (by simp [phase]) (fun _ => by simp) nofun
  | damagedRecord op busy kind =>
    have phase := (ops op busy).2.2.2.1 kind
    exact workLaw_finishRecord (s := State.raise { s.afterOp op with rollback := s.rollback.countDamage } _)
      (after busy (by simp [kind])) rfl (moving (by simp [phase]))
  | restore op busy kind =>
    obtain ⟨block, words, phase⟩ := (ops op busy).2.2.2.2.1 kind
    exact workLaw_finishRecord (s := State.showWrite _ _ _ _ _) (after busy (by simp [kind])) rfl
      (moving (by simp [phase]))
  | commitAnchor op c busy kind =>
    obtain ⟨closing, clean⟩ := (ops op busy).2.2.2.2.2.2.1 c kind
    have run := run_none law (by simp [closing]) (by simp [closing])
    exact workLaw_atIdle (s := State.raise _ _) (after busy (by simp [kind])) rfl (fun h => nomatch run.symm.trans h) clean
  | abortAnchor op c busy kind =>
    obtain ⟨-, -, clean⟩ := (ops op busy).2.2.2.2.2.2.2 c kind
    exact workLaw_atIdle (s := State.raise _ _) (workLaw_endRun (s := State.installAnchor _ _ _ _) (after busy (by simp [kind])) rfl)
      rfl nofun clean
  | zeroed op busy kind =>
    exact workLaw_advanceFormat (after busy (by rcases kind with ⟨c, k⟩ | k <;> simp [k])) rfl
  | formatConfig op c busy kind =>
    exact workLaw_advanceFormat (s := (s.afterOp op).installConfig c) (after busy (by simp [kind])) rfl
  | formatAnchor op busy kind =>
    have idle := idle_of_format law ((ops op busy).2.2.2.2.2.1 kind)
    have done := workLaw_of_same (t := { s.afterOp op with
        journal := (s.afterOp op).finishFormat.journal, events := ((s.afterOp op).raise .formatDone).events })
      (after busy (by simp [kind])) order (sameWork_idle (s := s.afterOp op) idle id rfl _ _ _)
    exact workLaw_serial done idle 1
  | saved op c busy kind => exact after busy (by simp [kind])
  | armed op i busy kind => exact after busy (by simp [kind])
  | discarded op i busy kind => exact after busy (by simp [kind])
  | firstCopy op busy kind => exact after busy (by rcases kind with k | k <;> simp [k])
  | configNone op busy kind =>
    have idle := asleep (by simp [(ops op busy).1.1 _ kind])
    exact workLaw_of_same (after busy (by simp [kind])) order (sameWork_idle (s := s.afterOp op) idle id rfl _ _ _)
  | configReady op c ws x busy kind =>
    have idle := asleep (by simp [(ops op busy).1.1 _ kind])
    exact workLaw_of_same (after busy (by simp [kind])) order (sameWork_idle (s := s.afterOp op) idle (fun _ => rfl) rfl _ _ _)
  | configJournal op c ws x busy kind =>
    have idle := asleep (by simp [(ops op busy).1.1 _ kind])
    exact workLaw_of_same (after busy (by simp [kind])) order (sameWork_idle (s := s.afterOp op) idle (fun _ => rfl) rfl _ _ _)
  | anchorNone op busy kind =>
    have idle := asleep (by simp [(ops op busy).1.2.1 _ kind])
    exact workLaw_of_same (after busy (by simp [kind])) order (sameWork_idle (s := s.afterOp op) idle id rfl _ _ _)
  | anchorFound op busy kind c a =>
    have idle := asleep (by simp [(ops op busy).1.2.1 _ kind])
    exact workLaw_of_same (after busy (by simp [kind])) order (sameWork_idle (s := s.afterOp op) idle id rfl _ _ _)
  | scanNext op busy kind => exact after busy (by simp [kind])
  | scanNone op busy kind =>
    have idle := asleep (by simp [(ops op busy).1.2.2.1 kind])
    have done := workLaw_of_same (after busy (by simp [kind])) (t := { s.afterOp op with
        journal := { s.journal with status := .formatted }
        control := { s.control with device := .ready, step := .done, firstCopy := none, lastN := 0, lastDamage := 0 }
        events := (State.atReady (s.afterOp op)).events })
      order (sameWork_idle (s := s.afterOp op) idle id rfl _ _ _)
    exact workLaw_serial done idle _
  | scanRun op busy kind n found =>
    exact workLaw_startRecoveryRun (after busy (by simp [kind])) rfl ((ops op busy).1.2.2.1 kind) n found
  | recovered op c busy kind =>
    have idle := asleep (by simp [(ops op busy).1.2.2.2 _ kind])
    have done := workLaw_of_same (after busy (by simp [kind])) (t := { s.afterOp op with
        journal := (((s.afterOp op).installAnchor c (s.journal.anchorSerial + 1) s.recoveryTail).finishRecovery).journal
        control := { s.control with device := .ready, step := .done, firstCopy := none
                                    lastN := s.control.scanIndex, lastDamage := s.rollback.damage }
        events := (((s.afterOp op).raise .recovered).atReady).events })
      order (sameWork_idle (s := s.afterOp op) idle id rfl _ _ _)
    exact workLaw_serial done idle _

/-- The order of work at rest: nothing is reserved, queued or running. -/
theorem workLaw_resetBlocks (s : State) (cause : ResetCause) : (s.resetBlocks cause).workLaw := by
  refine ⟨⟨by simp, by simp, by simp, nofun⟩, fun _ => ⟨rfl, rfl, rfl, rfl, rfl, rfl, rfl, nofun⟩, fun h => ?_,
    ⟨fun h => absurd rfl h, nofun, nofun⟩, ⟨nofun, nofun, nofun, by simp, nofun⟩, nofun, nofun, nofun⟩
  simp at h

theorem kept_workLaw : Kept State.workLaw where
  pending _ _ law := law
  change _ _ := workLaw_change
  clearHold _ law := law
  resumeRun _ := workLaw_resumeRun
  beginReset _ _ cause _ _ _ := workLaw_resetBlocks _ cause
  endReset s l law _ _ _ :=
    (classified _).workLaw (s := { s with lines := l, control.hold := _, frame.phase := _ }) law
  line _ _ law _ _ _ := law

/-- Settles O56, effect by effect: only the head of the queue makes progress, and it alone can be left of an epoch that
rolls back. -/
theorem stepsKeepTheOrderOfWork : Obligations.StepsKeepTheOrderOfWork := kept_workLaw.step

end Sys2Proof.Proofs
end

section
-- One declaration at a time: each thread that waits for another reserves memory of the check.
set_option Elab.async false
/-! The write-ahead rule (R46): an entry of the epoch without an append of its own never stands ahead of the record of its
block, because every PENDING entry of the set is owed by the queue and only the head leaves it. -/

namespace Sys2Proof.Proofs
open Sys2Proof.Machine Sys2Proof.Laws

variable {s t : State} {op : Operation} {head : QueueEntry} {rest : List QueueEntry}

/-- Every entry of the epoch without an append stands behind the record of its block (R46). -/
def recordsAhead (s : State) : Prop :=
  ∀ ahead e behind, s.host.queue = ahead ++ e :: behind → e.tag ≠ none → e.append = none → s.coveredBehind ahead e

/-- Every PENDING entry of the set is owed by an entry of the queue, for its block (R28). -/
def pendingOwed (s : State) : Prop :=
  s.epoch.state = .opened ∨ s.epoch.state = .doomed ∨ s.epoch.state = .closing →
    ∀ x ∈ s.loggedSet, x.state = .pending →
      ∃ o ∈ s.host.queue, o.owes = true ∧ o.append = some { sequence := x.sequence, spill := false } ∧
        blockOf o.addr = x.block

theorem recordsAhead_of_untagged (untagged : ∀ e ∈ s.host.queue, e.tag = none) : recordsAhead s :=
  fun ahead e behind queue tagged => absurd (untagged e (by simp [queue])) tagged

theorem split_append {q ahead behind : List QueueEntry} {e new : QueueEntry} (h : q ++ [new] = ahead ++ e :: behind) :
    (∃ more, q = ahead ++ e :: more) ∨ q = ahead ∧ e = new := by
  rcases List.eq_nil_or_concat behind with rfl | ⟨more, last, rfl⟩
  · obtain ⟨same, new⟩ := List.append_inj' h rfl
    exact .inr ⟨same, (List.cons.inj new).1.symm⟩
  · rw [List.concat_eq_append, ← List.cons_append, ← List.append_assoc] at h
    exact .inl ⟨more, (List.append_inj' h rfl).1⟩

/-- An entry joins the queue: behind its record if it is the epoch's and has no append. -/
theorem recordsAhead_join (law : recordsAhead s) (e : QueueEntry) (set : List SetEntry)
    (grows : ∀ x ∈ s.loggedSet, x ∈ set)
    (covered : e.tag ≠ none → e.append = none → s.coveredBehind s.host.queue e) :
    recordsAhead { s with loggedSet := set, host.queue := s.host.queue ++ [e] } := by
  intro ahead x behind queue tagged spare
  have found : s.coveredBehind ahead x := by
    rcases split_append queue with ⟨more, old⟩ | ⟨rfl, rfl⟩
    · exact law ahead x more old tagged spare
    · exact covered tagged spare
  obtain ⟨y, here, block, state⟩ := found
  exact ⟨y, grows y here, block, state⟩

theorem Classified.recordsAhead (h : Classified s t) (law : recordsAhead s) (owed : pendingOwed s) : recordsAhead t := by
  cases h with
  | nothing | held | waits | completed | refused | doomed => exact law
  | plain r x =>
    exact recordsAhead_join (s := s.completeHost 0) law (queueEntryOf r x none none) _ (fun _ => id)
      (fun tagged => absurd rfl tagged)
  | hit r x cls width policy free loaded room place live covered =>
    refine recordsAhead_join (s := s.completeHost 0) law (queueEntryOf r x (some s.epoch.serial) none) _ (fun _ => id)
      (fun _ _ => ?_)
    obtain ⟨y, here, block⟩ := List.any_eq_true.1 covered
    refine ⟨y, here, beq_iff_eq.1 block, ?_⟩
    cases state : y.state with
    | logged => exact .inl rfl
    | pending =>
      obtain ⟨o, queued, owes, append, -⟩ := owed (.inl live) y here state
      exact .inr ⟨o, queued, owes, append⟩
  | claimed r x =>
    have joined := fun set grows => recordsAhead_join (s := s.completeHost 0) law
      (queueEntryOf r x (some s.epoch.serial)
        (some { sequence := s.epoch.reserved, spill := decide (Config.setCapacity ≤ s.loggedSet.length) }))
      set grows (fun _ => nofun)
    unfold State.reserve
    split
    · exact joined _ (fun y here => List.mem_append_left _ here)
    · exact joined _ (fun _ => id)

theorem Classified.pendingOwed (h : Classified s t) (owed : pendingOwed s) : pendingOwed t := by
  cases h with
  | nothing | held | waits | completed | refused => exact owed
  | doomed r x free live => exact fun _ => owed (.inl live)
  | plain | hit =>
    intro live y here state
    obtain ⟨o, queued, rest⟩ := owed live y here state
    exact ⟨o, List.mem_append_left _ queued, rest⟩
  | claimed r x cls width policy free loaded room place live =>
    have old := owed (.inl live)
    intro _ y here state
    have before : y ∈ s.loggedSet ∨ s.loggedSet.length < 64 ∧
        y = { block := blockOf r.addr, state := .pending, sequence := s.epoch.reserved } := by
      simp only [joined, State.reserve, completeHost_loggedSet] at here
      split at here
      next room =>
        have space : s.loggedSet.length < 64 := room
        simpa [space] using here
      · exact .inl here
    rw [reserve_changes]
    rcases before with before | ⟨space, rfl⟩
    · obtain ⟨o, queued, rest⟩ := old y before state
      exact ⟨o, List.mem_append_left _ queued, rest⟩
    · refine ⟨_, List.mem_append_right _ (List.mem_singleton_self _), rfl, ?_, rfl⟩
      simp [queueEntryOf, decide_eq_false (not_le.2 (show s.loggedSet.length < Config.setCapacity from space))]

/-! ## The head of the queue -/

/-- What covers an entry behind a head that owes nothing covers it without the head. -/
theorem coveredBehind_pop {ahead : List QueueEntry} {e : QueueEntry} (paid : head.owes = false)
    (h : s.coveredBehind (head :: ahead) e) : s.coveredBehind ahead e := by
  obtain ⟨x, here, block, state⟩ := h
  refine ⟨x, here, block, state.imp id fun ⟨o, found, owes, append⟩ => ?_⟩
  rcases List.mem_cons.1 found with rfl | found
  · exact absurd (paid.symm.trans owes) (by decide)
  · exact ⟨o, found, owes, append⟩

theorem recordsAhead_pop (law : recordsAhead s) (queue : s.host.queue = head :: rest) (paid : head.owes = false) :
    recordsAhead { s with host.queue := rest } := by
  intro ahead e behind left tagged spare
  refine coveredBehind_pop paid (law (head :: ahead) e behind ?_ tagged spare)
  rw [queue, show rest = _ from left]
  rfl

theorem pendingOwed_pop (law : pendingOwed s) (queue : s.host.queue = head :: rest) (paid : head.owes = false) :
    pendingOwed { s with host.queue := rest } := by
  intro live x here state
  obtain ⟨o, queued, owes, found⟩ := law live x here state
  rw [queue] at queued
  rcases List.mem_cons.1 queued with rfl | queued
  · exact absurd (paid.symm.trans owes) (by decide)
  · exact ⟨o, queued, owes, found⟩

/-- The head moves on without settling what it owes. -/
theorem recordsAhead_head (law : recordsAhead s) (queue : s.host.queue = head :: rest) (p : Progress)
    (owes : ({ head with progress := p } : QueueEntry).owes = head.owes) :
    recordsAhead { s with host.queue := { head with progress := p } :: rest } := by
  intro ahead e behind split tagged spare
  cases ahead with
  | nil =>
    obtain ⟨rfl, rfl⟩ := List.cons.inj split
    exact law [] head rest queue tagged spare
  | cons first ahead =>
    obtain ⟨rfl, behind⟩ := List.cons.inj split
    obtain ⟨x, here, block, state⟩ := law (head :: ahead) e _ (by rw [queue, behind]; rfl) tagged spare
    refine ⟨x, here, block, state.imp id fun ⟨o, found, own, append⟩ => ?_⟩
    rcases List.mem_cons.1 found with rfl | found
    · exact ⟨_, List.mem_cons_self .., owes.trans own, append⟩
    · exact ⟨o, List.mem_cons_of_mem _ found, own, append⟩

theorem pendingOwed_head (law : pendingOwed s) (queue : s.host.queue = head :: rest) (p : Progress)
    (owes : ({ head with progress := p } : QueueEntry).owes = head.owes) :
    pendingOwed { s with host.queue := { head with progress := p } :: rest } := by
  intro live x here state
  obtain ⟨o, queued, own, append, block⟩ := law live x here state
  rw [queue] at queued
  rcases List.mem_cons.1 queued with rfl | queued
  · exact ⟨_, List.mem_cons_self .., owes.trans own, append, block⟩
  · exact ⟨o, List.mem_cons_of_mem _ queued, own, append, block⟩

/-- The record of a sequence makes its entry of the set LOGGED, and leaves the others (R32). -/
theorem mem_markLogged {q : Option Nat} {set : List SetEntry} {x : SetEntry} (here : x ∈ set) :
    ∃ y ∈ markLogged q set, y.block = x.block ∧ y.sequence = x.sequence ∧
      (some x.sequence = q ∧ y.state = .logged ∨ some x.sequence ≠ q ∧ y.state = x.state) := by
  refine ⟨_, List.mem_map_of_mem here, ?_⟩
  split
  next same => exact ⟨rfl, rfl, .inl ⟨same, rfl⟩⟩
  next other => exact ⟨rfl, rfl, .inr ⟨other, rfl⟩⟩

theorem pending_of_markLogged {q : Option Nat} {set : List SetEntry} {y : SetEntry} (here : y ∈ markLogged q set)
    (state : y.state = .pending) : y ∈ set ∧ some y.sequence ≠ q := by
  obtain ⟨x, found, rfl⟩ := List.mem_map.1 here
  split at state
  · cases state
  next other => rw [if_neg other]; exact ⟨found, other⟩

/-- The record of the head settles what it owes: the entry of its sequence is LOGGED (R45, R32). -/
theorem recordsAhead_recorded (law : recordsAhead s) (queue : s.host.queue = head :: rest) (append : head.append ≠ none) :
    recordsAhead
      { s with
        loggedSet := markLogged (head.append.map (fun a => a.sequence)) s.loggedSet
        host.queue := { head with progress := .writeWaiting } :: rest } := by
  intro ahead e behind split tagged spare
  cases ahead with
  | nil =>
    obtain ⟨rfl, -⟩ := List.cons.inj split
    exact absurd spare append
  | cons first ahead =>
    obtain ⟨rfl, behind⟩ := List.cons.inj split
    obtain ⟨x, here, block, state⟩ := law (head :: ahead) e _ (by rw [queue, behind]; rfl) tagged spare
    clear append
    obtain ⟨y, marked, sameBlock, sameSequence, now⟩ := mem_markLogged (q := head.append.map (fun a => a.sequence)) here
    refine ⟨y, marked, sameBlock.trans block, ?_⟩
    rcases now with ⟨-, logged⟩ | ⟨other, same⟩
    · exact .inl logged
    rcases state with logged | ⟨o, found, own, append⟩
    · exact .inl (same.trans logged)
    rcases List.mem_cons.1 found with rfl | found
    · simp [append] at other
    · exact .inr ⟨o, List.mem_cons_of_mem _ found, own, by rw [sameSequence]; exact append⟩

theorem pendingOwed_recorded (law : pendingOwed s) (queue : s.host.queue = head :: rest) :
    pendingOwed
      { s with
        loggedSet := markLogged (head.append.map (fun a => a.sequence)) s.loggedSet
        host.queue := { head with progress := .writeWaiting } :: rest } := by
  intro live y marked state
  obtain ⟨here, other⟩ := pending_of_markLogged marked state
  obtain ⟨o, queued, own, append, block⟩ := law live y here state
  rw [queue] at queued
  rcases List.mem_cons.1 queued with rfl | queued
  · simp [append] at other
  · exact ⟨o, List.mem_cons_of_mem _ queued, own, append, block⟩

/-- The cancellation keeps of the epoch's entries none but the head (R113). -/
theorem recordsAhead_cancelled (law : recordsAhead s) (work : s.workLaw) : recordsAhead (cancelled s) := by
  obtain ⟨-, -, -, ⟨-, tags, -⟩, -⟩ := work
  intro ahead e behind split tagged spare
  have split : cancelQueue s.epoch.serial s.host.queue = ahead ++ e :: behind := split
  cases queue : s.host.queue with
  | nil => simp [queue, cancelQueue] at split
  | cons head rest =>
    rw [queue] at tags split
    obtain ⟨kept, untagged, ⟨same, -⟩ | ⟨same, -⟩⟩ := cancelQueue_cases tags <;> rw [same] at split
    · cases ahead with
      | nil =>
        obtain ⟨rfl, -⟩ := List.cons.inj split
        exact law [] head rest queue tagged spare
      | cons first ahead =>
        obtain ⟨-, more⟩ := List.cons.inj split
        exact absurd (untagged e (by simp [more])).2 tagged
    · exact absurd (untagged e (by simp [split])).2 tagged

/-! ## Every change keeps the rule -/

theorem writeAheadLaw_iff : s.writeAheadLaw ↔ s.workLaw ∧ recordsAhead s ∧ pendingOwed s := Iff.rfl

/-- An entry whose word write waits or goes on owes nothing (R110). -/
theorem owes_of_write {e : QueueEntry} (h : e.progress = .writeWaiting ∨ e.progress = .writeInProgress) : e.owes = false := by
  rcases h with h | h <;> simp [QueueEntry.owes, h]

theorem owes_of_append {e : QueueEntry} (h : e.progress = .appendWaiting ∨ e.progress = .appendInFlight) : e.owes = true := by
  rcases h with h | h <;> simp [QueueEntry.owes, h]

theorem ahead_grant (ahead : recordsAhead s) (owed : pendingOwed s) {k : OpKind} (next : s.nextGrant = some k) :
    recordsAhead (s.grant k) ∧ pendingOwed (s.grant k) := by
  have ask := asked next
  cases k
  case appendRead =>
    cases ask with
    | appendRead head rest queue progress =>
      have own := owes_of_append (.inl progress)
      simp only [State.grant, State.ownerGranted]
      rw [headProgress_cons (head := head) (rest := rest)]
      exacts [⟨recordsAhead_head ahead queue .appendInFlight own.symm,
        pendingOwed_head owed queue .appendInFlight own.symm⟩, queue]
  case queueWrite =>
    cases ask with
    | queueWrite head rest queue progress =>
      have paid := owes_of_write (.inl progress)
      simp only [State.grant, State.ownerGranted]
      rw [headProgress_cons (head := head) (rest := rest)]
      exacts [⟨recordsAhead_head ahead queue .writeInProgress paid.symm,
        pendingOwed_head owed queue .writeInProgress paid.symm⟩, queue]
  case zeroAnchor =>
    simp only [State.grant, State.ownerGranted]
    split <;> exact ⟨ahead, owed⟩
  all_goals exact ⟨ahead, owed⟩

theorem ahead_change (law : s.writeAheadLaw) (step : Change s t) : recordsAhead t ∧ pendingOwed t := by
  obtain ⟨work, ahead, owed⟩ := writeAheadLaw_iff.1 law
  have owners : ∀ op, s.port.op = some op → owned s op.kind := by
    obtain ⟨-, -, -, -, -, ⟨-, -, owners⟩⟩ := work
    exact owners
  cases step with
  | present =>
    exact ⟨(classified _).recordsAhead (s := { s with lines := _ }) ahead owed,
      (classified _).pendingOwed (s := { s with lines := _ }) owed⟩
  | classify => exact ⟨(classified s).recordsAhead ahead owed, (classified s).pendingOwed owed⟩
  | grant k up free next => exact ahead_grant ahead owed next
  | pauseRun => rw [pauseRun_changes]; exact ⟨ahead, owed⟩
  | age elapsed runs live => exact ⟨ahead, owed⟩
  | begin ready free idle =>
    obtain ⟨-, -, -, -, -, empty, -, untagged⟩ := work.2.1 idle
    exact ⟨recordsAhead_of_untagged untagged, fun _ x here => by simp [empty] at here⟩
  | commit free live => exact ⟨ahead, fun _ => owed (.inl live)⟩
  | abort free live =>
    rw [startAbortRun_changes]
    exact ⟨recordsAhead_cancelled ahead work, fun live => by simp [cancelled] at live⟩
  | editDescriptor => rw [storeTable_changes]; exact ⟨ahead, owed⟩
  | editDefaults => rw [storeTable_changes]; exact ⟨ahead, owed⟩
  | disarm => rw [disarm_changes]; exact ⟨ahead, owed⟩
  | queueWrite op busy kind =>
    obtain ⟨head, rest, queue, writes⟩ := head_of_writing ((owners op busy).1 kind)
    have paid := owes_of_write (.inr writes)
    have popped := And.intro (recordsAhead_pop ahead queue paid) (pendingOwed_pop owed queue paid)
    rw [show rest = s.host.queue.tail by rw [queue]; rfl] at popped
    exact popped
  | appendWrite op busy kind =>
    obtain ⟨head, rest, queue, flies⟩ := head_of_flight ((owners op busy).2.1 (.inr kind))
    obtain ⟨-, -, -, ⟨-, -, owes⟩, -⟩ := work
    have append := (owes head (by simp [queue]) (owes_of_append (.inr flies))).2
    have sequence : (s.afterOp op).headSequence = head.append.map (fun a => a.sequence) := by
      simp [State.headSequence, State.afterOp, queue]
    rw [headProgress_cons (s := (s.afterOp op).reportRecord) queue, State.reportRecord, sequence]
    exact ⟨recordsAhead_recorded ahead queue append, pendingOwed_recorded owed queue⟩
  | cancelledAppend op busy kind back =>
    rw [startAbortRun_changes]
    obtain ⟨-, -, -, -, ⟨rolls, -⟩, -⟩ := work
    exact ⟨recordsAhead_of_untagged (rolls back).1, fun live => by simp [State.reportRecord, State.popQueue, back] at live⟩
  | damagedRecord => unfold State.damagedRecord; rw [finishRecord_changes]; exact ⟨ahead, owed⟩
  | restore => rw [finishRecord_changes]; exact ⟨ahead, owed⟩
  | commitAnchor op c busy kind =>
    exact ⟨recordsAhead_of_untagged ((owners op busy).2.2.2.2.2.1 c kind).2, fun live => by simp [State.atIdle] at live⟩
  | abortAnchor op c busy kind =>
    exact ⟨recordsAhead_of_untagged ((owners op busy).2.2.2.2.2.2 c kind).2.2, fun live => by simp [State.atIdle] at live⟩
  | zeroed => rw [advanceFormat_changes]; exact ⟨ahead, owed⟩
  | formatConfig => rw [advanceFormat_changes]; exact ⟨ahead, owed⟩
  | _ => exact ⟨ahead, owed⟩

theorem writeAheadLaw_resetBlocks (s : State) (cause : ResetCause) : (s.resetBlocks cause).writeAheadLaw :=
  ⟨workLaw_resetBlocks s cause, recordsAhead_of_untagged nofun, fun _ => nofun⟩

theorem kept_writeAheadLaw : Kept State.writeAheadLaw where
  pending _ _ law := law
  change _ _ law step := ⟨workLaw_change law.1 step, ahead_change law step⟩
  clearHold _ law := law
  resumeRun s law := by
    refine ⟨workLaw_resumeRun law.1, ?_⟩
    rw [resumeRun_changes]
    exact law.2
  beginReset _ _ cause _ _ _ := writeAheadLaw_resetBlocks _ cause
  endReset s l law free on presented := by
    obtain ⟨-, ahead, owed⟩ := writeAheadLaw_iff.1 law
    exact ⟨kept_workLaw.endReset s l law.1 free on presented,
      (classified _).recordsAhead (s := { s with lines := l, control.hold := _, frame.phase := _ }) ahead owed,
      (classified _).pendingOwed (s := { s with lines := l, control.hold := _, frame.phase := _ }) owed⟩
  line _ _ law _ _ _ := law

/-- Settles O57: the queue leaves in order, so what an entry stands behind is recorded before the entry is the head. -/
theorem stepsKeepTheWriteAheadRule : Obligations.StepsKeepTheWriteAheadRule := kept_writeAheadLaw.step

end Sys2Proof.Proofs
end

section
-- One declaration at a time: each thread that waits for another reserves memory of the check.
set_option Elab.async false
/-! QUIET (R129, R130): a quiet part under the hold has nothing to grant and nothing to complete, and what a command may
still change begins no work. -/

namespace Sys2Proof.Proofs
open Sys2Proof.Machine Sys2Proof.Laws

variable {s t : State} {i : Instr}

/-- Under the hold with an empty queue, a restore alone could still be granted, since no epoch is CLOSING (R127). -/
theorem exemptWaiting_isNone (closing : s.epoch.state ≠ .closing) :
    s.exemptWaiting.isNone = true ↔ ∀ block words, s.rollback.phase ≠ .restore block words := by
  constructor
  · intro spare block words phase
    simp [State.exemptWaiting, State.journalWaiting, phase, OpKind.exempt] at spare
  · intro phase
    by_contra waits
    obtain ⟨k, found⟩ := Option.ne_none_iff_exists'.1 fun spare : s.exemptWaiting = none => waits (by simp [spare])
    obtain ⟨journal, exempt⟩ := Option.filter_eq_some_iff.1 found
    cases asked_journal journal with
    | restore block words here => exact phase block words here
    | commitAnchor drained =>
      simp only [State.drained, Bool.and_eq_true, beq_iff_eq] at drained
      exact closing drained.1
    | _ => cases exempt

theorem quiet_iff :
    s.quiet = true ↔ s.running = true ∧ s.control.hold = true ∧ s.port.op = none ∧ s.host.queue = [] ∧
      s.epoch.state ≠ .closing ∧ ∀ block words, s.rollback.phase ≠ .restore block words := by
  simp only [State.quiet, Bool.and_eq_true, Option.isNone_iff_eq_none, List.isEmpty_iff, bne_iff_ne, and_assoc]
  constructor
  · rintro ⟨up, hold, free, empty, closing, exempt⟩
    exact ⟨up, hold, free, empty, closing, (exemptWaiting_isNone closing).1 (by simp [exempt])⟩
  · rintro ⟨up, hold, free, empty, closing, phase⟩
    exact ⟨up, hold, free, empty, closing, by simpa using (exemptWaiting_isNone closing).2 phase⟩

/-- A quiet part grants nothing (R127). -/
theorem nextGrant_of_quiet (quiet : s.quiet = true) : s.nextGrant = none := by
  obtain ⟨-, hold, -, empty, closing, phase⟩ := quiet_iff.1 quiet
  have exempt := (exemptWaiting_isNone closing).2 phase
  simp only [Option.isNone_iff_eq_none] at exempt
  simp [State.nextGrant, hold, State.wpWaiting, empty, exempt]

/-- Under the hold a classification at most holds the request (R102). -/
theorem Classified.of_hold (h : Classified s t) (hold : s.control.hold = true) :
    t = s ∨ ∃ x, t = s.holdHost x := by
  cases h with
  | nothing => exact .inl rfl
  | held x => exact .inr ⟨x, rfl⟩
  | waits _ _ free | completed free | refused _ _ free | doomed _ _ free | plain _ _ _ _ _ free
  | hit _ _ _ _ _ free | claimed _ _ _ _ _ free => exact absurd (hold.symm.trans free) (by decide)

theorem Classified.quiet (h : Classified s t) (quiet : s.quiet = true) : t.quiet = true ∧ t.mem = s.mem := by
  rcases h.of_hold (quiet_iff.1 quiet).2.1 with rfl | ⟨x, rfl⟩ <;> exact ⟨quiet, rfl⟩

theorem pauseRun_restore (h : ∀ block words, s.rollback.phase ≠ .restore block words) (block : Nat) (words : List Word) :
    s.pauseRun.rollback.phase ≠ .restore block words := by
  unfold State.pauseRun
  split
  · split <;> simp_all
  · split <;> simp_all
  all_goals exact h block words

theorem quiet_change (quiet : s.quiet = true) (step : Change s t) : t.quiet = true ∧ t.mem = s.mem := by
  have held := quiet_iff.1 quiet
  obtain ⟨up, hold, free, empty, closing, phase⟩ := held
  have runs : ∀ {P : Prop}, s.control.hold = false → P := fun off => absurd (hold.symm.trans off) (by decide)
  have idles : ∀ {P : Prop} {op}, s.port.op = some op → P := fun busy => nomatch free.symm.trans busy
  cases step with
  | present r => exact (classified _).quiet (s := { s with lines := _ }) (quiet_iff.2 ⟨up, hold, free, empty, closing, phase⟩)
  | classify => exact (classified s).quiet quiet
  | grant k up free next => exact nomatch (nextGrant_of_quiet quiet).symm.trans next
  | hold => exact ⟨quiet_iff.2 ⟨up, rfl, free, empty, closing, phase⟩, rfl⟩
  | pauseRun =>
    rw [pauseRun_changes]
    exact ⟨quiet_iff.2 ⟨up, hold, free, empty, closing, pauseRun_restore phase⟩, rfl⟩
  | begin ready off | commit off | abort off | save up off => exact runs off
  | startFormat ready off => exact runs off
  | arm i addr mask compare trigger ready off => exact runs off
  | switchFormat =>
    refine ⟨quiet_iff.2 ⟨up, hold, ?_, empty, closing, phase⟩, rfl⟩
    simp [formatSwitched, State.disarmInJournal, free]
  | editDescriptor => rw [storeTable_changes]; exact ⟨quiet_iff.2 ⟨up, hold, free, empty, closing, phase⟩, rfl⟩
  | editDefaults => rw [storeTable_changes]; exact ⟨quiet_iff.2 ⟨up, hold, free, empty, closing, phase⟩, rfl⟩
  | disarm i =>
    rw [disarm_changes]
    refine ⟨quiet_iff.2 ⟨up, hold, ?_, empty, closing, phase⟩, rfl⟩
    simp [State.disarm, State.discardArming, free]
  | frame | countFree | events | holdRead | age | stageJournal | restart =>
    exact ⟨quiet_iff.2 ⟨up, hold, free, empty, closing, phase⟩, rfl⟩
  | hostRead op busy | queueWrite op busy | appendRead op busy | appendWrite op busy | cancelledAppend op busy
  | foundRecord op busy | damagedRecord op busy | restore op busy | zeroed op busy | formatAnchor op busy
  | firstCopy op busy | configNone op busy | anchorNone op busy | anchorFound op busy
  | scanNext op busy | scanNone op busy | scanRun op busy => exact idles busy
  | commitAnchor op c busy | abortAnchor op c busy | formatConfig op c busy | saved op c busy | recovered op c busy =>
    exact idles busy
  | armed op i busy | discarded op i busy => exact idles busy
  | configReady op c ws x busy | configJournal op c ws x busy => exact idles busy

/-- Settles O32: each change of the row keeps QUIET and the memory, and the rows that are no chain of changes clear the hold
flag, reset the part or move a line while a reset lasts. -/
theorem quietStaysUntilTheHoldEnds : Obligations.QuietStaysUntilTheHoldEnds := by
  intro i s t quiet deassert on loss low restart h
  have up := (quiet_iff.1 quiet).1
  have runs : ∀ {P : Prop}, s.running = false → P := fun down => absurd (up.symm.trans down) (by decide)
  rcases exec_cases h with changes | turn
  · refine changes.keep (P := fun u => u.quiet = true ∧ u.mem = s.mem) (fun u v ⟨kept, same⟩ step => ?_) ⟨quiet, rfl⟩
    obtain ⟨still, memory⟩ := quiet_change kept step
    exact ⟨still, memory.trans same⟩
  · cases turn with
    | leaveHold => exact absurd rfl deassert
    | beginReset i l cause row => exact absurd row (by simp [on, loss, low])
    | restart up pending => exact absurd (pending.symm.trans (restart rfl)) (by decide)
    | endReset i l down => exact runs down
    | line i l down => exact runs down

end Sys2Proof.Proofs
end

section
-- One declaration at a time: each thread that waits for another reserves memory of the check.
set_option Elab.async false
/-! Where the words of an operation lie, and what its completion does to the shadows of the monitors (R121, R156, R158). -/

namespace Sys2Proof.Proofs
open Sys2Proof.Machine Sys2Proof.Laws

variable {s t : State} {op : Operation} {l : Location} {k : Nat} {c : Machine.Cell}

/-! ## Extents -/

/-- The i-th word of an extent that stays within the memory. -/
theorem toNat_add_ofNat (a : WordAddr) {i : Nat} (h : a.toNat + i < 1048576) :
    (a + BitVec.ofNat 20 i).toNat = a.toNat + i := by
  simp only [BitVec.toNat_add, BitVec.toNat_ofNat]
  omega

/-- A word outside an extent keeps its value. -/
theorem readWord_outside (m : List Host.Cell) (a b : WordAddr) (lanes : Lanes) (ws : List Word)
    (within : a.toNat + ws.length ≤ 1048576) (off : b.toNat < a.toNat ∨ a.toNat + ws.length ≤ b.toNat) :
    readWord (writeWords m a lanes ws) b = readWord m b := by
  refine readWord_writeWords_of_ne ws m a b lanes fun i hi same => ?_
  have := congrArg BitVec.toNat same
  rw [toNat_add_ofNat a (by omega)] at this
  omega

/-! ## Cells at a write shown to them -/

theorem evaluate_of_not_armed (a : WordAddr) (ws : List Word) (lanes : Lanes) (x : Source) (h : c.armed = false) :
    c.evaluate a ws lanes x = c := by
  unfold Cell.evaluate
  split
  · rw [h]; rfl
  · rfl

theorem judged_armed (c : Machine.Cell) : c.judged = .matching ∨ c.judged = .mismatch := by
  unfold Cell.judged
  split <;> simp

theorem armed_iff : c.armed = true ↔ c.state = .matching ∨ c.state = .mismatch := by
  simp [Cell.armed]

/-- A write shown to a cell leaves its address, and leaves it armed if it was and as it was if not. -/
theorem evaluate_keeps (c : Machine.Cell) (a : WordAddr) (ws : List Word) (lanes : Lanes) (x : Source) :
    (c.evaluate a ws lanes x).addr = c.addr ∧ (c.evaluate a ws lanes x).armed = c.armed ∧
      (c.armed = false → (c.evaluate a ws lanes x).state = c.state) := by
  cases armed : c.armed with
  | false => rw [evaluate_of_not_armed a ws lanes x armed]; exact ⟨rfl, armed, fun _ => rfl⟩
  | true =>
    unfold Cell.evaluate
    split
    next w _ =>
      have judged : (c.merged w lanes).armed = true := armed_iff.2 (judged_armed _)
      rw [armed, if_pos rfl]
      split <;> exact ⟨rfl, judged, nofun⟩
    · exact ⟨rfl, armed, nofun⟩

/-- A shadow follows its word through a write shown to its cell (R156, R158). -/
theorem evaluate_shadow {m : List Host.Cell} (wf : Memory.wf m) (a : WordAddr) (ws : List Word) (lanes : Lanes)
    (x : Source) (within : a.toNat + ws.length ≤ 1048576) (armed : c.armed = true) (equal : c.shadow = readWord m c.addr) :
    (c.evaluate a ws lanes x).shadow = readWord (writeWords m a lanes ws) c.addr := by
  unfold Cell.evaluate
  split
  next w here =>
    have shadow : (c.merged w lanes).shadow = readWord (writeWords m a lanes ws) c.addr := by
      unfold Cell.wordIn at here
      split at here
      next low =>
        have high := (List.getElem?_eq_some_iff.1 here).1
        have written := readWord_writeWords ws m a lanes _ w wf (by omega) here
        have place : a + BitVec.ofNat 20 (c.addr.toNat - a.toNat) = c.addr :=
          BitVec.eq_of_toNat_eq (by rw [toNat_add_ofNat a (by have := c.addr.isLt; omega)]; omega)
        rw [place] at written
        rw [written, ← equal]
        rfl
      · cases here
    rw [armed, if_pos rfl]
    split <;> exact shadow
  next away =>
    rw [equal, readWord_outside m a c.addr lanes ws within]
    unfold Cell.wordIn at away
    split at away
    next low =>
      have := List.getElem?_eq_none_iff.1 away
      omega
    next high => exact .inl (not_le.1 high)

/-! ## Places -/

theorem validForUse_iff :
    l.validForUse = true ↔ 9 ≤ l.base.toNat ∧ 1 ≤ l.slots.toNat ∧ l.slots.toNat ≤ 4096 ∧ l.last ≤ 65535 := by
  simp only [Location.validForUse, Bool.and_eq_true, decide_eq_true_eq, and_assoc]
  rfl

/-- A slot of a location valid for use lies within the blocks it covers (R38, R39). -/
theorem slot_covered (valid : l.validForUse = true) (slot : k < l.slots.toNat) :
    (l.slotStart k).toNat = 16 * l.base.toNat + 22 * k ∧ (l.slotStart k).toNat + 22 ≤ 1048576 ∧
      ∀ b, (l.slotStart k).toNat ≤ b → b < (l.slotStart k).toNat + 22 → l.covers (b / 16) = true := by
  obtain ⟨-, some, -, last⟩ := validForUse_iff.1 valid
  have blocks : l.last = l.base.toNat + (22 * l.slots.toNat + 15) / 16 - 1 := rfl
  rw [blocks] at last
  have start : (l.slotStart k).toNat = 16 * l.base.toNat + 22 * k := by
    simp only [Location.slotStart, Config.blockWords, Config.slotWords, BitVec.toNat_ofNat]
    omega
  have nonzero : l.slots ≠ 0 := fun zero => by simp [zero] at some
  refine ⟨start, by omega, fun b low high => ?_⟩
  simp only [Location.covers, blocks, Bool.and_eq_true, decide_eq_true_eq, bne_iff_ne]
  exact ⟨⟨nonzero, by omega⟩, by omega⟩

/-- The word of a block that is the host's is in no slot of the live journal area (R42). -/
theorem hostBlock_off_slot {a : WordAddr} (h : s.hostBlock (a.toNat / 16)) (valid : s.journal.live.validForUse = true)
    (slot : k < s.journal.live.slots.toNat) :
    a.toNat < (s.journal.live.slotStart k).toNat ∨ (s.journal.live.slotStart k).toNat + 22 ≤ a.toNat := by
  obtain ⟨-, -, covered⟩ := slot_covered valid slot
  by_contra inside
  simp only [not_or, not_lt, not_le] at inside
  exact absurd (h.2.1.symm.trans (covered a.toNat inside.1 inside.2)) (by decide)

theorem anchorStart_le (c : Copy) : c.anchorStart.toNat + 8 ≤ 144 := by cases c <;> decide

theorem configStart_le (c : Copy) : c.configStart.toNat + 64 ≤ 144 := by cases c <;> decide

/-- The word of a block that is the host's is above the device area. -/
theorem hostBlock_above {a : WordAddr} (h : s.hostBlock (a.toNat / 16)) : 144 ≤ a.toNat := by
  have := h.1
  omega

/-- The ring of a location with slots stays within it (R41). -/
theorem ring_lt (slots : l.slots ≠ 0) (tail n : Nat) : l.ring tail n < l.slots.toNat :=
  Nat.mod_lt _ (Nat.pos_of_ne_zero fun zero => slots (BitVec.eq_of_toNat_eq (by simpa using zero)))

/-! ## Words written -/

theorem withCheck_length (target : Word) (body : List Word) : (withCheck target body).length = body.length + 1 := by
  simp [withCheck]

theorem anchorWords_length (next : Serial) (tail : Nat) (l : Location) : (anchorWords next tail l).length = 8 := by
  simp [anchorWords, withCheck_length, words32]

theorem recordWords_length (spill : Bool) (serial : Serial) (sequence block : Nat) {preimage : List Word}
    (length : preimage.length = 16) : (recordWords spill serial sequence block preimage).length = 22 := by
  simp [recordWords, withCheck_length, words32, length]

theorem descriptorWords_length (x : RegionTable) : (x.descs.toList.flatMap Descriptor.words).length = 48 := by
  rw [List.length_flatMap, show (fun d : Descriptor => d.words.length) = fun _ => 3 from rfl]
  simp

theorem configWords_length (c : StoredConfig) : (configWords c).length = 64 := by
  simp [configWords, withCheck_length, words32, descriptorWords_length, -List.length_flatMap]

theorem readWords_length (m : List Host.Cell) (n : Nat) : ∀ a, (readWords m a n).length = n := by
  induction n with
  | zero => exact fun _ => rfl
  | succ n ih => exact fun a => congrArg (· + 1) (ih (a + 1))

end Sys2Proof.Proofs
end

section
-- One declaration at a time: each thread that waits for another reserves memory of the check.
set_option Elab.async false
/-! The law of R158, part by part: the journal locations and what waits for the port have their places. -/

namespace Sys2Proof.Proofs
open Sys2Proof.Machine Sys2Proof.Laws

variable {s t : State} {op : Operation} {l : Location} {k : Nat}

/-! ## What the laws of the work and the serial say about places -/

theorem format_none_of_early (law : s.serialLaw) (early : s.control.device ≠ .ready) : s.journal.format = none := by
  by_contra job
  exact early (law.2.1 job).1

theorem recovering_of_step (law : s.startOrder) (other : s.control.step ≠ .configRead) (more : s.control.step ≠ .done) :
    s.control.device = .recovering := by
  cases device : s.control.device with
  | starting => exact absurd (law.1.1 device) other
  | ready => exact absurd (law.2.1.1 device) more
  | recovering => rfl

/-- While a FORMAT is in progress no run is. -/
theorem phase_of_format (work : s.workLaw) (serial : s.serialLaw) (job : s.journal.format ≠ none) :
    s.rollback.phase = .idle := by
  have idle := idle_of_format work job
  obtain ⟨⟨-, done, recovery, -⟩, -, -, -, ⟨-, -, abort, spare, -⟩, -⟩ := work
  refine spare.1 ?_
  cases run : s.rollback.run with
  | none => rfl
  | abort => exact absurd (idle.symm.trans (abort run).1) (by decide)
  | recovery => exact absurd ((done.1 (serial.2.1 job).1).symm.trans (recovery run)) (by decide)

/-- A run that is not idle has a journal with slots. -/
theorem slots_of_phase (work : s.workLaw) (placed : s.locationsPlaced) (phase : s.rollback.phase ≠ .idle) :
    s.journal.live.slots ≠ 0 := by
  obtain ⟨order, -, -, -, ⟨-, -, abort, spare, -⟩, -⟩ := work
  refine placed.2.2.1 ?_
  cases run : s.rollback.run with
  | none => exact absurd (spare.1 run) phase
  | abort => exact .inr (.inr (by simp [(abort run).1]))
  | recovery =>
    have step := order.2.2.1 run
    exact .inl (recovering_of_step order (by simp [step]) (by simp [step]))

/-- While a run is in progress no FORMAT is. -/
theorem format_of_phase (work : s.workLaw) (serial : s.serialLaw) (phase : s.rollback.phase ≠ .idle) :
    s.journal.format = none := by
  by_contra job
  exact phase (phase_of_format work serial job)

/-! ## The journal locations -/

theorem locationsPlaced_of_same (law : s.locationsPlaced) (live : t.journal.live = s.journal.live)
    (staged : t.journal.staged = s.journal.staged) (format : t.journal.format = s.journal.format)
    (needs : t.control.device = .recovering ∨ t.journal.status = .formatted ∨ t.epoch.state ≠ .idle →
      s.control.device = .recovering ∨ s.journal.status = .formatted ∨ s.epoch.state ≠ .idle) : t.locationsPlaced := by
  unfold State.locationsPlaced
  rw [live, staged, format]
  exact ⟨law.1, law.2.1, fun h => law.2.2.1 (needs h), law.2.2.2⟩

theorem Classified.awake (h : Classified s t) (live : t.epoch.state ≠ .idle) : s.epoch.state ≠ .idle := by
  obtain ⟨-, -, state⟩ := h.epoch
  rcases state with same | ⟨opened, -⟩
  · rwa [← same]
  · simp [opened]

theorem Classified.locationsPlaced (h : Classified s t) (law : s.locationsPlaced)
    (journal : t.journal = s.journal) (control : t.control = s.control) : t.locationsPlaced := by
  refine locationsPlaced_of_same law (by rw [journal]) (by rw [journal]) (by rw [journal]) ?_
  rw [journal, control]
  exact Or.imp id (Or.imp id h.awake)

theorem judgeConfig_location {ws : List Word} {x : StoredConfig} (h : judgeConfig ws = some x)
    (slots : x.location.slots ≠ 0) : x.location.validForUse = true := by
  unfold judgeConfig at h
  split at h
  · split at h <;> cases h
    next ok => exact ok.2.2.1.resolve_left fun zero => slots (by simp [locationAt, zero])
  · cases h

/-- FORMAT's step changes, its slots counted within the live location (R60). -/
theorem locationsPlaced_advanceFormat (law : s.locationsPlaced)
    (step : ∀ job, s.journal.format = some job → job.step ≠ .drain) : s.advanceFormat.locationsPlaced := by
  unfold State.advanceFormat
  split
  next job format =>
    obtain ⟨live, staged, needs, place⟩ := law
    obtain ⟨slots, spare, inside⟩ := place job format
    have none := spare (step job format)
    rw [none] at slots
    refine ⟨live, staged, needs, fun now found => ?_⟩
    simp only [State.formatStep, format, Option.map_some, Option.some.injEq] at found
    subst found
    refine ⟨by simpa [State.formatStep, none] using slots, fun _ => none, fun k next => ?_⟩
    have positive : 0 < s.journal.live.slots.toNat :=
      Nat.pos_of_ne_zero fun zero => slots (BitVec.eq_of_toNat_eq (by simpa using zero))
    change nextFormatStep s.slots job.step = .slots k at next
    show k < s.journal.live.slots.toNat
    unfold nextFormatStep at next
    split at next
    case h_4 => cases next; exact positive
    case h_5 => split at next <;> cases next; assumption
    all_goals cases next
  · exact law

/-- A grant touches of the journal the anchor in force alone (R58). -/
theorem grant_journal (s : State) (k : OpKind) :
    (s.grant k).journal =
      { s.journal with inForce := (s.grant k).journal.inForce, anchorSerial := (s.grant k).journal.anchorSerial } := by
  cases k
  case zeroAnchor => simp only [State.grant, State.ownerGranted]; split <;> rfl
  case appendRead | queueWrite => simp only [State.grant, State.ownerGranted]; rw [headProgress_changes]
  all_goals rfl

/-- What a completion of FORMAT finds: its step, past the drain (R58 to R60). -/
theorem format_of_extent (extent : s.extentPlaced op)
    (kind : (∃ c, op.kind = .zeroAnchor c) ∨ op.kind = .zeroSlot ∨ (∃ c, op.kind = .formatConfig c) ∨ op.kind = .formatAnchor) :
    ∀ job, s.journal.format = some job → job.step ≠ .drain := by
  intro job format drain
  unfold State.extentPlaced at extent
  rcases kind with ⟨c, k⟩ | k | ⟨c, k⟩ | k <;> simp only [k] at extent <;> rw [format] at extent
  · obtain ⟨-, -, -, x, same, step⟩ := extent
    cases same
    simp [drain] at step
  · obtain ⟨-, -, x, y, same, -⟩ := extent
    cases same
    cases drain
  · obtain ⟨-, -, -, x, same, step⟩ := extent
    cases same
    simp [drain] at step
  · obtain ⟨-, -, -, x, same, step⟩ := extent
    cases same
    simp [drain] at step

theorem locationsPlaced_change (work : s.workLaw) (serial : s.serialLaw) (law : s.locationsPlaced)
    (extents : ∀ op, s.port.op = some op → s.extentPlaced op) (step : Change s t) : t.locationsPlaced := by
  have steps : ∀ op, s.port.op = some op → startKind s op.kind := (startOrder_iff.1 work.1).2
  have same := locationsPlaced_of_same (s := s) (t := t) law
  cases step with
  | present => exact (classified _).locationsPlaced (s := { s with lines := _ }) law (classify_journal _) (classify_control _)
  | classify => exact (classified s).locationsPlaced law (classify_journal _) (classify_control _)
  | grant k =>
    rw [grant_changes, grant_journal] at same ⊢
    exact same rfl rfl rfl id
  | pauseRun => rw [pauseRun_changes]; exact law
  | age elapsed runs live => exact same rfl rfl rfl (Or.imp id (Or.imp id fun h => h))
  | begin ready free idle format formatted => exact same rfl rfl rfl fun _ => .inr (.inl formatted)
  | commit free live => exact same rfl rfl rfl fun _ => .inr (.inr (by simp [live]))
  | abort free live =>
    rw [startAbortRun_changes] at same ⊢
    exact same rfl rfl rfl fun _ => .inr (.inr (closing_ne_idle live))
  | stageJournal l ready idle valid =>
    have spare : s.journal.format = none := by
      by_contra job
      simp [(storing_iff s).2 (.inr job)] at idle
    refine ⟨law.1, fun l' staged => ?_, law.2.2.1, fun job found => nomatch spare.symm.trans found⟩
    cases staged
    exact valid
  | startFormat ready free idle spare place =>
    have idle : (formatStarted s).epoch.state = .idle := idle
    refine ⟨law.1, law.2.1, fun h => ?_, fun job found => ?_⟩
    · rcases h with h | h | h
      · exact nomatch ready.symm.trans h
      · cases h
      · exact absurd idle h
    · cases found
      refine ⟨?_, fun other => absurd rfl other, nofun⟩
      show (s.journal.staged.getD s.journal.live).slots ≠ 0
      cases staged : s.journal.staged with
      | none => exact place staged
      | some l =>
        intro zero
        obtain ⟨-, some, -⟩ := validForUse_iff.1 (law.2.1 l staged)
        simp [show l.slots = 0 from zero] at some
  | switchFormat drains =>
    obtain ⟨job, format⟩ : ∃ job, s.journal.format = some job := by
      cases format : s.journal.format with
      | none => simp [State.draining, format] at drains
      | some job => exact ⟨job, rfl⟩
    obtain ⟨slots, -⟩ := law.2.2.2 job format
    refine ⟨fun _ => ?_, nofun, fun _ => slots, fun now found => ?_⟩
    · show (s.journal.staged.getD s.journal.live).validForUse = true
      cases staged : s.journal.staged with
      | none => exact law.1 (by simpa [staged] using slots)
      | some l => exact law.2.1 l staged
    · obtain ⟨was, -, rfl⟩ := Option.map_eq_some_iff.1 (show s.journal.format.map _ = some now from found)
      exact ⟨slots, fun _ => rfl, nofun⟩
  | editDescriptor => rw [storeTable_changes]; exact law
  | editDefaults => rw [storeTable_changes]; exact law
  | disarm => rw [disarm_changes]; exact law
  | appendWrite => rw [headProgress_changes]; exact law
  | cancelledAppend => rw [startAbortRun_changes]; exact law
  | damagedRecord => unfold State.damagedRecord; rw [finishRecord_changes]; exact law
  | restore => rw [finishRecord_changes]; exact law
  | commitAnchor => exact same rfl rfl rfl (Or.imp id (Or.imp id fun h => absurd rfl h))
  | abortAnchor => exact same rfl rfl rfl (Or.imp id (Or.imp id fun h => absurd rfl h))
  | zeroed op busy kind =>
    exact locationsPlaced_advanceFormat (s := s.afterOp op) law
      (format_of_extent (extents op busy) (kind.imp id .inl))
  | formatConfig op c busy kind =>
    exact locationsPlaced_advanceFormat (s := (s.afterOp op).installConfig c) law
      (format_of_extent (extents op busy) (.inr (.inr (.inl ⟨c, kind⟩))))
  | formatAnchor op busy kind =>
    have past := format_of_extent (extents op busy) (.inr (.inr (.inr kind)))
    refine ⟨law.1, law.2.1, fun _ => ?_, nofun⟩
    cases format : s.journal.format with
    | none => exact absurd format (serial.2.2.1 op busy kind)
    | some job =>
      obtain ⟨slots, spare, -⟩ := law.2.2.2 job format
      rw [spare (past job format)] at slots
      exact slots
  | configNone op busy kind =>
    exact same rfl rfl rfl (Or.imp (fun h => nomatch h) id)
  | configReady op c ws x busy kind judged slots =>
    have early : s.control.device ≠ .ready := fun ready =>
      absurd (work.1.2.1.1 ready) (by simp [(steps op busy).1 _ kind])
    refine ⟨fun some => absurd slots some, law.2.1, fun h => ?_, fun job found => nomatch (format_none_of_early serial early).symm.trans found⟩
    rcases h with h | h | h
    · cases h
    · exact nomatch (serial.2.2.2.1 early).symm.trans h
    · exact absurd (idle_of_early work early) h
  | configJournal op c ws x busy kind judged slots =>
    have early : s.control.device ≠ .ready := fun ready =>
      absurd (work.1.2.1.1 ready) (by simp [(steps op busy).1 _ kind])
    exact ⟨fun _ => judgeConfig_location judged slots, law.2.1, fun _ => slots,
      fun job found => nomatch (format_none_of_early serial early).symm.trans found⟩
  | anchorNone op busy kind => exact same rfl rfl rfl (Or.imp (fun h => nomatch h) id)
  | scanNone op busy kind =>
    have step := (steps op busy).2.2.1 kind
    exact same rfl rfl rfl fun _ => .inl (recovering_of_step work.1 (by simp [step]) (by simp [step]))
  | recovered op c busy kind =>
    have step := (steps op busy).2.2.2 _ kind
    exact same rfl rfl rfl fun _ => .inl (recovering_of_step work.1 (by simp [step]) (by simp [step]))
  | _ => exact law

/-! ## The blocks of the host -/

variable {b : Nat} {a : WordAddr}

theorem inJournalArea_eq_false (h : s.inJournalArea b = false) :
    s.journal.live.covers b = false ∧ ∀ job, s.journal.format = some job → job.old.covers b = false := by
  unfold State.inJournalArea at h
  rw [Bool.or_eq_false_iff] at h
  refine ⟨h.1, fun job format => ?_⟩
  have old := h.2
  rw [format] at old
  exact (Bool.or_eq_false_iff.1 old).1

theorem hostBlock_of_watchable (h : s.unwatchable a = false) : s.hostBlock (a.toNat / 16) := by
  unfold State.unwatchable at h
  rw [Bool.or_eq_false_iff] at h
  exact ⟨not_lt.1 (of_decide_eq_false h.1), inJournalArea_eq_false h.2⟩

/-- A lookup finds a region only in a block of the host's (R79). -/
theorem hostBlock_of_lookup {x : RegionIndex} {cls : RegionClass} {width : Width} {policy : OutsidePolicy}
    (h : s.lookup a = .region x cls width policy) : s.hostBlock (a.toNat / 16) := by
  refine hostBlock_of_watchable ?_
  unfold State.lookup at h
  unfold State.unwatchable
  split at h
  · cases h
  next high =>
    split at h
    · cases h
    next apart => exact Bool.or_eq_false_iff.2 ⟨decide_eq_false high, Bool.eq_false_iff.2 apart⟩

theorem hostBlock_formatStep (step : FormatStep) (h : s.hostBlock b) : (s.formatStep step).hostBlock b := by
  refine ⟨h.1, h.2.1, fun job found => ?_⟩
  obtain ⟨was, format, rfl⟩ := Option.map_eq_some_iff.1 (show s.journal.format.map _ = some job from found)
  exact h.2.2 was format

/-- The block of a record judged valid is the host's, outside a FORMAT (R42). -/
theorem hostBlock_of_judged {expected : Serial} {sequence : Nat} {ws words : List Word}
    (h : judgeRecord expected sequence s.journal.live ws = some (b, words)) (spare : s.journal.format = none)
    (length : ws.length = 22) : b < 65536 ∧ words.length = 16 ∧ s.hostBlock b := by
  unfold judgeRecord at h
  split at h <;> cases h
  next ok =>
    obtain ⟨-, -, -, -, low, apart⟩ := ok
    exact ⟨(wordAt ws 4).isLt, by simp [length, Config.blockWords], low, apart, fun job found => nomatch spare.symm.trans found⟩

/-! ## What waits for the port -/

theorem waitingPlaced_queue (law : s.waitingPlaced) (q : List QueueEntry)
    (places : ∀ e ∈ q, s.hostBlock (e.addr.toNat / 16)) (early : s.control.device = .starting → q = []) :
    ({ s with host.queue := q } : State).waitingPlaced := by
  obtain ⟨-, -, rest⟩ := law
  exact ⟨places, early, rest⟩

theorem waitingPlaced_joined (law : s.waitingPlaced) (r : HostRequest) (x : RegionIndex) (tag : Option Serial)
    (append : Option Append) (loaded : s.control.device ≠ .starting) (place : s.hostBlock (r.addr.toNat / 16)) :
    (joined s r x tag append).waitingPlaced := by
  obtain ⟨places, early, preimage, restore, -, free⟩ := law
  refine ⟨fun e here => ?_, fun h => absurd h loaded, preimage, restore, nofun, free⟩
  rcases List.mem_append.1 here with old | new
  · exact places e old
  · obtain rfl := List.mem_singleton.1 new
    exact place

theorem Classified.waitingPlaced (h : Classified s t) (law : s.waitingPlaced) : t.waitingPlaced := by
  have ⟨places, early, preimage, restore, _, free⟩ := law
  cases h with
  | nothing => exact law
  | held x => exact ⟨places, early, preimage, restore, nofun, free⟩
  | waits r shown => exact ⟨places, early, preimage, restore, fun _ => by simp [shown], free⟩
  | completed | refused | doomed => exact ⟨places, early, preimage, restore, nofun, free⟩
  | plain r x cls width policy free loaded room place | hit r x cls width policy free loaded room place =>
    exact waitingPlaced_joined law r x _ _ loaded (hostBlock_of_lookup place)
  | claimed r x cls width policy free loaded room place =>
    rw [reserve_changes]
    exact waitingPlaced_joined (s := { s with epoch := _, loggedSet := _ }) law r x _ _ loaded (hostBlock_of_lookup place)

/-- A run begins no restore but by the record it has read (R69). -/
theorem waitingPlaced_rollback (law : s.waitingPlaced) (x : Rollback)
    (same : ∀ block words, x.phase = .restore block words → s.rollback.phase = .restore block words) :
    ({ s with rollback := x } : State).waitingPlaced := by
  obtain ⟨places, early, preimage, restore, waits, free⟩ := law
  exact ⟨places, early, preimage, fun block words phase => restore block words (same block words phase), waits, free⟩

theorem waitingPlaced_afterOp (law : s.waitingPlaced) (op : Operation) : (s.afterOp op).waitingPlaced := by
  obtain ⟨places, early, preimage, restore, waits, -⟩ := law
  exact ⟨places, early, preimage, restore, waits, fun _ => rfl⟩

theorem waitingPlaced_startAbortRun (law : s.waitingPlaced) : s.startAbortRun.waitingPlaced := by
  have placed := waitingPlaced_rollback law s.startAbortRun.rollback fun block words phase => by
    unfold State.startAbortRun at phase
    split at phase
    · unfold startPhase at phase
      split at phase
      · cases phase
      · split at phase <;> cases phase
    · exact phase
  rw [startAbortRun_changes]
  exact placed

theorem waitingPlaced_finishRecord (law : s.waitingPlaced) : s.finishRecord.waitingPlaced := by
  have placed := waitingPlaced_rollback law s.finishRecord.rollback fun block words phase => by
    unfold State.finishRecord at phase
    split at phase
    · split at phase
      · cases phase
      · simp only at phase; split at phase <;> cases phase
      · cases phase
    · simp only at phase; split at phase <;> cases phase
  rw [finishRecord_changes] at placed ⊢
  exact placed

theorem waitingPlaced_pauseRun (law : s.waitingPlaced) : s.pauseRun.waitingPlaced := by
  have placed := waitingPlaced_rollback law s.pauseRun.rollback fun block words phase => by
    unfold State.pauseRun at phase
    split at phase
    · split at phase
      · exact phase
      · cases phase
    · split at phase
      · exact phase
      · cases phase
    all_goals exact phase
  rw [pauseRun_changes] at placed ⊢
  exact placed

theorem waitingPlaced_resumeRun (law : s.waitingPlaced) : s.resumeRun.waitingPlaced := by
  have placed := waitingPlaced_rollback law s.resumeRun.rollback fun block words phase => by
    unfold State.resumeRun at phase
    split at phase
    · simp only at phase; split at phase <;> cases phase
    · exact phase
  rw [resumeRun_changes] at placed ⊢
  exact placed

/-- The head's progress does not move it. -/
theorem waitingPlaced_headProgress (law : s.waitingPlaced) (p : Progress) : (s.headProgress p).waitingPlaced := by
  unfold State.headProgress
  split
  next head rest queue =>
    obtain ⟨places, early, -⟩ := id law
    rw [queue] at places early
    refine waitingPlaced_queue law _ (fun e here => ?_) fun h => nomatch early h
    rcases List.mem_cons.1 here with rfl | here
    · exact places head (List.mem_cons_self ..)
    · exact places e (List.mem_cons_of_mem _ here)
  · exact law

theorem waitingPlaced_sublist (law : s.waitingPlaced) {q : List QueueEntry} (h : q.Sublist s.host.queue) :
    ({ s with host.queue := q } : State).waitingPlaced :=
  waitingPlaced_queue law q (fun e here => law.1 e (h.subset here)) fun early => by
    rw [law.2.1 early] at h
    exact List.sublist_nil.1 h

theorem waitingPlaced_granted (law : s.waitingPlaced) (up : s.running = true) (port : Port) :
    ({ s with port := port } : State).waitingPlaced := by
  obtain ⟨places, early, preimage, restore, asks, -⟩ := law
  exact ⟨places, early, preimage, restore, asks, fun down => absurd (up.symm.trans down) (by decide)⟩

theorem waitingPlaced_grant (law : s.waitingPlaced) (up : s.running = true) (k : OpKind) : (s.grant k).waitingPlaced := by
  have granted := waitingPlaced_granted law up { op := some (s.operationFor k), alternation := k.group.side }
  cases k
  case hostRead =>
    obtain ⟨places, early, preimage, restore, -, free⟩ := granted
    exact ⟨places, early, preimage, restore, nofun, free⟩
  case appendRead | queueWrite => exact waitingPlaced_headProgress granted _
  case zeroAnchor => simp only [State.grant, State.ownerGranted]; split <;> exact granted
  all_goals exact granted

/-- Before the configuration is loaded nothing waits for the port (R103). -/
theorem waitingPlaced_loaded (work : s.workLaw) (law : s.waitingPlaced) (step : s.control.step = .configRead)
    (j : Journal) (preimage : j.preimage = s.journal.preimage) (c : Control) (e : Events) (x : Regions) :
    ({ s with journal := j, control := c, events := e, regions := x } : State).waitingPlaced := by
  have early : s.control.device = .starting := work.1.1.2 step
  have empty := law.2.1 early
  have phase : s.rollback.phase = .idle := by
    have asleep := idle_of_early work (by simp [early])
    obtain ⟨⟨-, -, recovery, -⟩, -, -, -, ⟨-, -, abort, spare, -⟩, -⟩ := work
    refine spare.1 ?_
    cases run : s.rollback.run with
    | none => rfl
    | abort => exact absurd (asleep.symm.trans (abort run).1) (by decide)
    | recovery => exact absurd (step.symm.trans (recovery run)) (by decide)
  obtain ⟨-, -, words, -, asks, free⟩ := law
  refine ⟨fun e here => ?_, fun _ => empty, ?_, fun block words now => absurd (phase.symm.trans now) (by simp), asks, free⟩
  · simp [empty] at here
  · rw [preimage]; exact words

theorem waitingPlaced_advanceFormat (law : s.waitingPlaced) : s.advanceFormat.waitingPlaced := by
  unfold State.advanceFormat
  split
  · obtain ⟨places, early, preimage, restore, asks, free⟩ := law
    refine ⟨fun e here => hostBlock_formatStep _ (places e here), early, preimage, fun block words phase => ?_, asks, free⟩
    obtain ⟨small, length, place⟩ := restore block words phase
    exact ⟨small, length, hostBlock_formatStep _ place⟩
  · exact law

/-- Start-up goes on past STARTING. -/
theorem waitingPlaced_control (law : s.waitingPlaced) (c : Control) (loaded : c.device ≠ .starting) :
    ({ s with control := c } : State).waitingPlaced := by
  obtain ⟨places, -, rest⟩ := law
  exact ⟨places, fun early => absurd early loaded, rest⟩

theorem waitingPlaced_change (work : s.workLaw) (serial : s.serialLaw) (law : s.waitingPlaced)
    (extents : ∀ op, s.port.op = some op → s.extentPlaced op) (step : Change s t) : t.waitingPlaced := by
  have steps : ∀ op, s.port.op = some op → startKind s op.kind := (startOrder_iff.1 work.1).2
  have after := waitingPlaced_afterOp law
  cases step with
  | frame f cs up => 
    obtain ⟨places, early, preimage, restore, asks, free⟩ := law
    exact ⟨places, early, preimage, restore, asks, free⟩
  | present r up free =>
    refine (classified _).waitingPlaced (s := { s with lines := _ }) ?_
    obtain ⟨places, early, preimage, restore, asks, free⟩ := law
    exact ⟨places, early, preimage, restore, fun _ => nofun, free⟩
  | classify => exact (classified s).waitingPlaced law
  | grant k up => exact waitingPlaced_grant law up k
  | pauseRun => exact waitingPlaced_pauseRun law
  | holdRead =>
    obtain ⟨places, early, preimage, restore, asks, free⟩ := law
    exact ⟨places, early, preimage, restore, nofun, free⟩
  | abort => exact waitingPlaced_startAbortRun (s := cancelled s) (waitingPlaced_sublist law (cancelQueue_sublist _ _))
  | startFormat =>
    obtain ⟨places, early, preimage, restore, asks, free⟩ := law
    have wider : ∀ b, s.hostBlock b → (formatStarted s).hostBlock b := fun b h =>
      ⟨h.1, h.2.1, fun job found => by cases found; exact h.2.1⟩
    refine ⟨fun e here => wider _ (places e here), early, preimage, fun block words phase => ?_, asks, free⟩
    obtain ⟨small, length, place⟩ := restore block words phase
    exact ⟨small, length, wider _ place⟩
  | switchFormat drains empty =>
    have job : s.journal.format ≠ none := fun gone => by simp [State.draining, gone] at drains
    have phase := phase_of_format work serial job
    obtain ⟨-, -, preimage, -, asks, free⟩ := law
    refine ⟨fun e here => ?_, fun _ => empty, preimage, fun block words now => absurd (phase.symm.trans now) (by simp),
      asks, fun down => ?_⟩
    · simp [formatSwitched, State.disarmInJournal, empty] at here
    · show s.port.op.map _ = none
      rw [free down]
      rfl
  | editDescriptor => rw [storeTable_changes]; exact law
  | editDefaults => rw [storeTable_changes]; exact law
  | disarm i =>
    obtain ⟨places, early, preimage, restore, asks, free⟩ := law
    rw [disarm_changes]
    refine ⟨places, early, preimage, restore, asks, fun down => ?_⟩
    simp [State.disarm, State.discardArming, free down]
  | hostRead op =>
    obtain ⟨places, early, preimage, restore, asks, free⟩ := after op
    exact ⟨places, early, preimage, restore, nofun, free⟩
  | queueWrite op => exact waitingPlaced_sublist (s := (s.afterOp op).showWrite _ _ _ _) (after op) (List.tail_sublist _)
  | appendRead op busy kind =>
    have extent := extents op busy
    simp only [State.extentPlaced, kind] at extent
    obtain ⟨places, early, preimage, restore, asks, free⟩ := after op
    refine ⟨places, early, fun p now => ?_, restore, asks, free⟩
    cases now
    rw [State.wordsRead, readWords_length, extent.2.1]
  | appendWrite op =>
    refine waitingPlaced_headProgress (s := (s.afterOp op).reportRecord) ?_ _
    obtain ⟨places, early, preimage, restore, asks, free⟩ := after op
    exact ⟨places, early, nofun, restore, asks, free⟩
  | cancelledAppend op =>
    refine waitingPlaced_startAbortRun (waitingPlaced_sublist (s := (s.afterOp op).reportRecord) ?_ (List.tail_sublist _))
    obtain ⟨places, early, preimage, restore, asks, free⟩ := after op
    exact ⟨places, early, nofun, restore, asks, free⟩
  | foundRecord op busy kind block words judged =>
    have extent := extents op busy
    simp only [State.extentPlaced, kind] at extent
    have spare := format_of_phase work serial (by simp [(run_of_op work busy).1 kind])
    have found := hostBlock_of_judged judged spare (by rw [State.wordsRead, readWords_length, extent.2.1])
    obtain ⟨places, early, preimage, -, asks, free⟩ := after op
    refine ⟨places, early, preimage, fun b w now => ?_, asks, free⟩
    cases now
    exact found
  | damagedRecord op =>
    exact waitingPlaced_finishRecord (s := State.raise _ _)
      (waitingPlaced_rollback (after op) s.rollback.countDamage fun block words phase => phase)
  | restore op => exact waitingPlaced_finishRecord (s := State.showWrite _ _ _ _ _) (after op)
  | abortAnchor op => exact waitingPlaced_rollback (after op) { s.rollback with run := .none, phase := .idle, remaining := 0 } nofun
  | zeroed op => exact waitingPlaced_advanceFormat (after op)
  | formatConfig op c => exact waitingPlaced_advanceFormat (s := (s.afterOp op).installConfig c) (after op)
  | formatAnchor op =>
    obtain ⟨places, early, preimage, restore, asks, free⟩ := after op
    refine ⟨fun e here => ?_, early, preimage, fun block words phase => ?_, asks, free⟩
    · exact ⟨(places e here).1, (places e here).2.1, nofun⟩
    · obtain ⟨small, length, place⟩ := restore block words phase
      exact ⟨small, length, place.1, place.2.1, nofun⟩
  | configNone op busy kind =>
    exact waitingPlaced_loaded (workLaw_afterOp work busy (by simp [kind])) (after op) ((steps op busy).1 _ kind)
      s.journal rfl _ _ s.regions
  | configReady op c ws x busy kind =>
    exact waitingPlaced_loaded (workLaw_afterOp work busy (by simp [kind])) (after op) ((steps op busy).1 _ kind)
      { s.journal with live := x.location } rfl _ _ _
  | configJournal op c ws x busy kind =>
    exact waitingPlaced_loaded (workLaw_afterOp work busy (by simp [kind])) (after op) ((steps op busy).1 _ kind)
      { s.journal with live := x.location } rfl _ _ _
  | anchorNone op => exact waitingPlaced_control (after op) _ nofun
  | scanNone op => exact waitingPlaced_control (after op) (State.atReady { s.afterOp op with control := _ }).control nofun
  | scanRun op busy kind n =>
    have placed := waitingPlaced_rollback (after op) ((s.afterOp op).startRecoveryRun n).rollback fun block words phase => by
      simp only [State.startRecoveryRun] at phase
      split at phase <;> cases phase
    exact placed
  | recovered op c => exact waitingPlaced_control (after op) (State.atReady (State.finishRecovery _)).control nofun
  | commitAnchor op | saved op | armed op | discarded op | firstCopy op | anchorFound op | scanNext op => exact after op
  | _ => exact law

end Sys2Proof.Proofs
end

section
-- One declaration at a time: each thread that waits for another reserves memory of the check.
set_option Elab.async false
/-! The law of R158, its remaining parts: the cells watch words of the host's, their shadows follow the memory, and the
operation in progress lies where its kind puts it. -/

namespace Sys2Proof.Proofs
open Sys2Proof.Machine Sys2Proof.Laws

variable {s t : State} {op : Operation} {k : OpKind} {i j : Fin 8}

/-! ## The cells -/

/-- No cell in use watches a word that is not the host's, and before READY none is in use. -/
def cellsApart (s : State) : Prop :=
  (∀ i : Fin 8, s.monitors[i].state ≠ .disarmed → s.hostBlock (s.monitors[i].addr.toNat / 16)) ∧
    (s.control.device ≠ .ready → ∀ i : Fin 8, s.monitors[i].state = .disarmed)

/-- Every armed cell's shadow equals its word (R158). -/
def shadowsEqual (s : State) : Prop :=
  ∀ i : Fin 8, s.monitors[i].state = .matching ∨ s.monitors[i].state = .mismatch →
    s.monitors[i].shadow = readWord s.mem s.monitors[i].addr

theorem watchesApart_iff : s.watchesApart ↔ cellsApart s ∧ shadowsEqual s :=
  ⟨fun ⟨a, b, c⟩ => ⟨⟨a, b⟩, c⟩, fun ⟨⟨a, b⟩, c⟩ => ⟨a, b, c⟩⟩

/-- A cell in use needs a device at READY. -/
theorem ready_of_cell (law : cellsApart s) (used : s.monitors[i].state ≠ .disarmed) : s.control.device = .ready := by
  by_contra early
  exact used (law.2 early i)

theorem set_get (v : Vector Machine.Cell 8) (i j : Fin 8) (c : Machine.Cell) :
    (v.set i c)[j] = if j = i then c else v[j] := by
  split
  next h => subst h; exact Vector.getElem_set_self _
  next h => exact Vector.getElem_set_ne _ _ fun e => h (Fin.ext e.symm)

/-- One cell changes; if it is in use then, it was, or its word is the host's on a part at READY. -/
theorem cellsApart_set (law : cellsApart s) (i : Fin 8) (c : Machine.Cell)
    (apart : c.state ≠ .disarmed → s.control.device = .ready ∧ s.hostBlock (c.addr.toNat / 16)) :
    cellsApart { s with monitors := s.monitors.set i c } := by
  constructor
  · intro j used
    simp only [set_get] at used ⊢
    split at used
    next same => rw [if_pos same]; exact (apart used).2
    next other => rw [if_neg other]; exact law.1 j used
  · intro early j
    simp only [set_get]
    split
    · by_contra used
      exact early (apart used).1
    · exact law.2 early j

theorem shadowsEqual_set (law : shadowsEqual s) (i : Fin 8) (c : Machine.Cell)
    (equal : c.state = .matching ∨ c.state = .mismatch → c.shadow = readWord s.mem c.addr) :
    shadowsEqual { s with monitors := s.monitors.set i c } := by
  intro j armed
  simp only [set_get] at armed ⊢
  split at armed
  next same => rw [if_pos same]; exact equal armed
  next other => rw [if_neg other]; exact law j armed

/-- Cells that a write shown to them has changed watch what they watched. -/
theorem cellsApart_showWrite (law : cellsApart s) (a : WordAddr) (ws : List Word) (lanes : Lanes) (x : Source) :
    cellsApart (s.showWrite a ws lanes x) := by
  have cell : ∀ i : Fin 8, (s.showWrite a ws lanes x).monitors[i].addr = s.monitors[i].addr ∧
      (s.monitors[i].state = .disarmed ↔ (s.showWrite a ws lanes x).monitors[i].state = .disarmed) := by
    intro i
    rw [showWrite_monitor]
    obtain ⟨addr, armed, unarmed⟩ := evaluate_keeps s.monitors[i] a ws lanes x
    refine ⟨addr, ?_⟩
    cases was : s.monitors[i].armed with
    | false => rw [unarmed was]
    | true =>
      rw [was, armed_iff] at armed
      rw [armed_iff] at was
      constructor
      · intro h; rcases was with w | w <;> exact nomatch w.symm.trans h
      · intro h; rcases armed with w | w <;> exact nomatch w.symm.trans h
  refine ⟨fun i used => ?_, fun early i => (cell i).2.1 (law.2 early i)⟩
  rw [(cell i).1]
  exact law.1 i fun h => used ((cell i).2.1 h)

theorem shadowsEqual_showWrite (law : shadowsEqual s) (wf : s.memoryWf) (op : Operation) (x : Source)
    (within : op.start.toNat + op.writes.length ≤ 1048576) :
    shadowsEqual ((s.afterOp op).showWrite op.start op.writes op.lanes x) := by
  intro i armed
  rw [showWrite_monitor] at armed ⊢
  obtain ⟨addr, same, -⟩ := evaluate_keeps s.monitors[i] op.start op.writes op.lanes x
  have was : s.monitors[i].armed = true := same.symm.trans (armed_iff.2 armed)
  exact (evaluate_shadow wf op.start op.writes op.lanes x within was (law i (armed_iff.1 was))).trans
    (congrArg (readWord _) addr.symm)

/-- An operation whose words no cell in use watches leaves the shadows equal. -/
theorem shadowsEqual_afterOp (law : shadowsEqual s) (op : Operation)
    (within : op.start.toNat + op.writes.length ≤ 1048576)
    (off : ∀ i : Fin 8, s.monitors[i].state ≠ .disarmed →
      s.monitors[i].addr.toNat < op.start.toNat ∨ op.start.toNat + op.writes.length ≤ s.monitors[i].addr.toNat) :
    shadowsEqual (s.afterOp op) := by
  intro i armed
  have used : s.monitors[i].state ≠ .disarmed := by rcases armed with h | h <;> exact fun e => nomatch h.symm.trans e
  exact (law i armed).trans (readWord_outside s.mem op.start _ op.lanes op.writes within (off i used)).symm

theorem cellsApart_advanceFormat (law : cellsApart s) : cellsApart s.advanceFormat := by
  unfold State.advanceFormat
  split
  · exact ⟨fun i used => hostBlock_formatStep _ (law.1 i used), law.2⟩
  · exact law

theorem cellsApart_change (work : s.workLaw) (law : cellsApart s)
    (extents : ∀ op, s.port.op = some op → s.extentPlaced op) (step : Change s t) : cellsApart t := by
  have steps : ∀ op, s.port.op = some op → startKind s op.kind := (startOrder_iff.1 work.1).2
  cases step with
  | present | classify => 
    unfold cellsApart State.hostBlock
    rw [classify_monitors, classify_control, classify_journal]
    exact law
  | grant k =>
    rw [grant_changes, grant_journal]
    exact law
  | pauseRun => rw [pauseRun_changes]; exact law
  | abort => rw [startAbortRun_changes]; exact law
  | startFormat =>
    refine ⟨fun i used => ?_, law.2⟩
    obtain ⟨low, live, -⟩ := law.1 i used
    exact ⟨low, live, fun job found => by cases found; exact live⟩
  | switchFormat =>
    constructor
    · intro i used
      rw [formatSwitched_monitor] at used ⊢
      split at used
      · exact absurd rfl used
      next kept =>
        rw [if_neg kept]
        obtain ⟨low, -, old⟩ := law.1 i used
        have apart : (s.journal.staged.getD s.journal.live).covers (s.monitors[i].addr.toNat / 16) = false :=
          Bool.eq_false_iff.2 fun covers => kept ⟨used, covers⟩
        refine ⟨low, apart, fun job found => ?_⟩
        obtain ⟨was, format, rfl⟩ := Option.map_eq_some_iff.1 (show s.journal.format.map _ = some job from found)
        exact old was format
    · intro early i
      rw [formatSwitched_monitor]
      split
      · rfl
      · exact law.2 early i
  | editDescriptor => rw [storeTable_changes]; exact law
  | editDefaults => rw [storeTable_changes]; exact law
  | arm i addr mask compare trigger ready free apart place =>
    exact cellsApart_set law i _ (fun _ => ⟨ready, hostBlock_of_watchable place⟩)
  | disarm i =>
    rw [disarm_changes]
    exact cellsApart_set law i _ (fun used => absurd rfl used)
  | queueWrite op => exact cellsApart_showWrite (s := s.afterOp op) law _ _ _ _
  | appendWrite => rw [headProgress_changes]; exact law
  | cancelledAppend => rw [startAbortRun_changes]; exact law
  | damagedRecord => unfold State.damagedRecord; rw [finishRecord_changes]; exact law
  | restore op =>
    rw [finishRecord_changes]
    exact cellsApart_showWrite (s := s.afterOp op) law _ _ _ _
  | zeroed op => exact cellsApart_advanceFormat (s := s.afterOp op) law
  | formatConfig op c => exact cellsApart_advanceFormat (s := (s.afterOp op).installConfig c) law
  | formatAnchor =>
    exact ⟨fun i used => ⟨(law.1 i used).1, (law.1 i used).2.1, nofun⟩, law.2⟩
  | armed op i busy kind =>
    have extent := extents op busy
    simp only [State.extentPlaced, kind] at extent
    have used : s.monitors[i].state ≠ .disarmed := fun unused => nomatch (extent.2.2 trivial).1.symm.trans unused
    refine cellsApart_set law i _ ?_
    exact fun _ => ⟨ready_of_cell law used, law.1 i used⟩
  | configNone | anchorNone | scanNone | recovered => exact ⟨law.1, fun early => absurd rfl early⟩
  | configReady op c ws x busy kind =>
    have early : s.control.device ≠ .ready := fun ready =>
      absurd (work.1.2.1.1 ready) (by simp [(steps op busy).1 _ kind])
    exact ⟨fun i used => absurd (law.2 early i) used, fun early => absurd rfl early⟩
  | configJournal op c ws x busy kind =>
    have early : s.control.device ≠ .ready := fun ready =>
      absurd (work.1.2.1.1 ready) (by simp [(steps op busy).1 _ kind])
    exact ⟨fun i used => absurd (law.2 early i) used, fun _ => law.2 early⟩
  | _ => exact law

/-! ## The shadows -/

/-- An operation writes within the memory, and no word of the host's. -/
def offHost (s : State) (op : Operation) : Prop :=
  op.start.toNat + op.writes.length ≤ 1048576 ∧
    ∀ a : WordAddr, s.hostBlock (a.toNat / 16) → a.toNat < op.start.toNat ∨ op.start.toNat + op.writes.length ≤ a.toNat

theorem offHost_of_read (writes : op.writes = []) : offHost s op := by
  have := op.start.isLt
  unfold offHost
  rw [writes, List.length_nil]
  exact ⟨by omega, fun a _ => by omega⟩

theorem offHost_of_low (below : op.start.toNat + op.writes.length ≤ 144) : offHost s op :=
  ⟨by omega, fun _ host => .inr (below.trans (hostBlock_above host))⟩

theorem offHost_of_slot (placed : s.locationsPlaced) (n : Nat) (less : n < s.journal.live.slots.toNat)
    (place : op.start = s.journal.live.slotStart n) (length : op.writes.length = 22) : offHost s op := by
  have valid := placed.1 fun zero => by simp [zero] at less
  unfold offHost
  rw [length, place]
  exact ⟨(slot_covered valid less).2.1, fun a host => hostBlock_off_slot host valid less⟩

/-- An operation that is not shown to the cells writes no word of the host's. -/
theorem offHost_of_extent (placed : s.locationsPlaced) (extent : s.extentPlaced op) (write : op.kind ≠ .queueWrite)
    (restore : op.kind ≠ .restore) : offHost s op := by
  cases kind : op.kind <;> simp only [State.extentPlaced, kind] at extent
  case queueWrite => exact absurd kind write
  case restore => exact absurd kind restore
  case appendWrite =>
    obtain ⟨length, -, k, less, place⟩ := extent
    exact offHost_of_slot placed k less place length
  case zeroSlot =>
    obtain ⟨length, -, old, k, format, place⟩ := extent
    exact offHost_of_slot placed k ((placed.2.2.2 _ format).2.2 k rfl) place length
  case commitAnchor c | abortAnchor c | recoveryAnchor c =>
    obtain ⟨length, -, place⟩ := extent
    exact offHost_of_low (by rw [place, length]; exact anchorStart_le c)
  case zeroAnchor c =>
    obtain ⟨length, -, place, -⟩ := extent
    exact offHost_of_low (by rw [place, length]; exact anchorStart_le c)
  case formatAnchor =>
    obtain ⟨length, -, place, -⟩ := extent
    exact offHost_of_low (by rw [place, length]; decide)
  case formatConfig c =>
    obtain ⟨length, -, place, -⟩ := extent
    exact offHost_of_low (by rw [place, length]; exact configStart_le c)
  case saveConfig c =>
    obtain ⟨length, -, place⟩ := extent
    exact offHost_of_low (by rw [place, length]; exact configStart_le c)
  all_goals exact offHost_of_read extent.1

/-- The words of a shown write stay within the memory. -/
theorem extent_shown (placed : s.waitingPlaced) (extent : s.extentPlaced op)
    (kind : op.kind = .queueWrite ∨ op.kind = .restore) : op.start.toNat + op.writes.length ≤ 1048576 := by
  rcases kind with kind | kind <;> simp only [State.extentPlaced, kind] at extent
  · obtain ⟨head, rest, -, -, -, writes, -⟩ := extent
    have := op.start.isLt
    rw [writes, List.length_singleton]
    omega
  · obtain ⟨-, block, phase, start⟩ := extent
    obtain ⟨small, length, -⟩ := placed.2.2.2.1 block op.writes phase
    rw [start, length, BitVec.toNat_ofNat]
    omega

theorem shadowsEqual_change (law : s.shadowLaw) (step : Change s t) : shadowsEqual t := by
  obtain ⟨wf, work, serial, watches, places, waiting, extents⟩ := law
  obtain ⟨cells, shadows⟩ := watchesApart_iff.1 watches
  have after : ∀ op, s.port.op = some op → op.kind ≠ .queueWrite → op.kind ≠ .restore → shadowsEqual (s.afterOp op) := by
    intro op busy write restore
    obtain ⟨within, off⟩ := offHost_of_extent places (extents op busy) write restore
    exact shadowsEqual_afterOp shadows op within fun i used => off _ (cells.1 i used)
  cases step with
  | present | classify =>
    unfold shadowsEqual
    rw [classify_monitors, classify_mem]
    exact shadows
  | grant k => rw [grant_changes]; exact shadows
  | pauseRun => rw [pauseRun_changes]; exact shadows
  | abort => rw [startAbortRun_changes]; exact shadows
  | switchFormat =>
    intro i armed
    rw [formatSwitched_monitor] at armed ⊢
    split at armed
    · rcases armed with h | h <;> cases h
    next kept => rw [if_neg kept]; exact shadows i armed
  | editDescriptor => rw [storeTable_changes]; exact shadows
  | editDefaults => rw [storeTable_changes]; exact shadows
  | arm i => exact shadowsEqual_set shadows i _ (fun armed => by rcases armed with h | h <;> cases h)
  | disarm i =>
    rw [disarm_changes]
    exact shadowsEqual_set shadows i _ (fun armed => by rcases armed with h | h <;> cases h)
  | queueWrite op busy kind =>
    exact shadowsEqual_showWrite shadows wf op _ (extent_shown waiting (extents op busy) (.inl kind))
  | restore op busy kind =>
    rw [finishRecord_changes]
    exact shadowsEqual_showWrite shadows wf op _ (extent_shown waiting (extents op busy) (.inr kind))
  | appendWrite op busy kind =>
    rw [headProgress_changes]
    exact after op busy (by simp [kind]) (by simp [kind])
  | cancelledAppend op busy kind =>
    rw [startAbortRun_changes]
    exact after op busy (by simp [kind]) (by simp [kind])
  | damagedRecord op busy kind =>
    unfold State.damagedRecord
    rw [finishRecord_changes]
    exact after op busy (by simp [kind]) (by simp [kind])
  | zeroed op busy kind =>
    rw [advanceFormat_changes]
    exact after op busy (by rcases kind with ⟨c, h⟩ | h <;> simp [h]) (by rcases kind with ⟨c, h⟩ | h <;> simp [h])
  | formatConfig op c busy kind =>
    rw [advanceFormat_changes]
    exact after op busy (by simp [kind]) (by simp [kind])
  | armed op i busy kind =>
    have extent := extents op busy
    simp only [State.extentPlaced, kind] at extent
    refine shadowsEqual_set (after op busy (by simp [kind]) (by simp [kind])) i _ ?_
    intro _
    show readWord s.mem op.start = readWord (writeWords s.mem op.start op.lanes op.writes) s.monitors[i].addr
    rw [extent.1, (extent.2.2 trivial).2]
    rfl
  | firstCopy op busy kind =>
    exact after op busy (by rcases kind with h | h <;> simp [h]) (by rcases kind with h | h <;> simp [h])
  | hostRead op busy kind | appendRead op busy kind | foundRecord op busy kind | formatAnchor op busy kind
  | configNone op busy kind | anchorNone op busy kind | anchorFound op busy kind | scanNext op busy kind
  | scanNone op busy kind | scanRun op busy kind => exact after op busy (by simp [kind]) (by simp [kind])
  | commitAnchor op c busy kind | abortAnchor op c busy kind | saved op c busy kind | recovered op c busy kind
  | discarded op c busy kind => exact after op busy (by simp [kind]) (by simp [kind])
  | configReady op c ws x busy kind | configJournal op c ws x busy kind =>
    exact after op busy (by simp [kind]) (by simp [kind])
  | _ => exact shadows

/-! ## The operation granted -/

theorem extentPlaced_grant (law : s.shadowLaw) (next : s.nextGrant = some k) :
    (s.grant k).extentPlaced (s.operationFor k) := by
  obtain ⟨-, work, serial, -, places, waiting, -⟩ := law
  have ask := asked next
  cases ask with
  | hostRead waits =>
    obtain ⟨r, shown⟩ := Option.ne_none_iff_exists'.1 (waiting.2.2.2.2.1 waits)
    exact ⟨rfl, rfl, rfl, r, shown, by simp [State.operationFor, readOp, shown]⟩
  | appendRead head rest queue progress =>
    have op : s.operationFor .appendRead = head.appendReadOp := by simp [State.operationFor, State.headOp, queue]
    have grant : (s.grant .appendRead).host.queue = { head with progress := .appendInFlight } :: rest := by
      simp only [State.grant, State.ownerGranted]
      rw [headProgress_cons (head := head) (rest := rest)]
      exact queue
    rw [op]
    exact ⟨rfl, rfl, _, _, grant, rfl⟩
  | queueWrite head rest queue progress =>
    have op : s.operationFor .queueWrite = head.writeOp := by simp [State.operationFor, State.headOp, queue]
    have grant : (s.grant .queueWrite).host.queue = { head with progress := .writeInProgress } :: rest := by
      simp only [State.grant, State.ownerGranted]
      rw [headProgress_cons (head := head) (rest := rest)]
      exact queue
    rw [op]
    exact ⟨_, _, grant, rfl, rfl, rfl, rfl⟩
  | appendWrite head rest queue progress preimage kept =>
    have op : s.operationFor .appendWrite = s.appendWriteOp head := by simp [State.operationFor, State.headOp, queue]
    have awake := (epoch_of_owing work queue (owes_of_append (.inr progress))).1
    have slots := places.2.2.1 (.inr (.inr awake))
    rw [op]
    refine ⟨?_, rfl, _, ring_lt slots _ _, rfl⟩
    show (head.record (s.journal.preimage.getD [])).length = 22
    rw [kept]
    exact recordWords_length _ _ _ _ (waiting.2.2.1 preimage kept)
  | saveConfig => exact ⟨configWords_length _, rfl, rfl⟩
  | rollbackRead phase =>
    have slots := slots_of_phase work places (by simp [phase])
    exact ⟨rfl, rfl, _, ring_lt slots _ _, rfl⟩
  | restore block words phase =>
    have op : s.operationFor .restore = writeOp .restore (blockStart block) words := by
      simp [State.operationFor, phase]
    rw [op]
    exact ⟨rfl, block, phase, rfl⟩
  | abortAnchor | commitAnchor | recoveryAnchor => exact ⟨anchorWords_length _ _ _, rfl, rfl⟩
  | zeroFirst job format step =>
    refine ⟨rfl, rfl, rfl, job, ?_, .inl step⟩
    rw [grant_journal]
    exact format
  | zeroSecond job format step =>
    refine ⟨rfl, rfl, rfl, job, ?_, .inr step⟩
    rw [grant_journal]
    exact format
  | formatConfig job format step => exact ⟨configWords_length _, rfl, rfl, job, format, step⟩
  | zeroSlot job n format step =>
    obtain ⟨old, now⟩ := job
    cases step
    refine ⟨rfl, rfl, old, n, format, ?_⟩
    simp [State.operationFor, format, writeOp, State.grant, State.ownerGranted]
  | formatAnchor job format step => exact ⟨anchorWords_length _ _ _, rfl, rfl, job, format, step⟩
  | configRead | anchorRead => exact ⟨rfl, rfl, rfl⟩
  | scanRead step =>
    have slots := places.2.2.1 (.inl (recovering_of_step work.1 (by simp [step]) (by simp [step])))
    exact ⟨rfl, rfl, _, ring_lt slots _ _, rfl⟩
  | arming i state => exact ⟨rfl, rfl, fun _ => ⟨state, rfl⟩⟩

/-! ## The operation in progress -/

/-- What the place of an operation in progress depends on is the same in two states. -/
structure SameExtent (s t : State) (k : OpKind) : Prop where
  read : k = .hostRead → t.host.phase = s.host.phase ∧ t.lines.presented = s.lines.presented := by intro _; exact ⟨rfl, rfl⟩
  head : k = .queueWrite ∨ k = .appendRead → ∀ head rest, s.host.queue = head :: rest →
    ∃ rest, t.host.queue = head :: rest := by exact fun _ _ rest queue => ⟨rest, queue⟩
  restore : k = .restore → t.rollback.phase = s.rollback.phase := by intro _; rfl
  live : k = .appendWrite ∨ k = .rollbackRead ∨ k = .scanRead ∨ k = .zeroSlot → t.journal.live = s.journal.live := by intro _; rfl
  format : (∃ c, k = .zeroAnchor c) ∨ k = .zeroSlot ∨ (∃ c, k = .formatConfig c) ∨ k = .formatAnchor →
    t.journal.format = s.journal.format := by intro _; rfl
  cell : ∀ i, k = .arming i true → t.monitors[i] = s.monitors[i] := by intro _ _; rfl

theorem SameExtent.extentPlaced (h : SameExtent s t op.kind) (extent : s.extentPlaced op) : t.extentPlaced op := by
  obtain ⟨read, head, restore, live, format, cell⟩ := h
  cases kind : op.kind <;> rw [kind] at read head restore live format cell <;>
    simp only [State.extentPlaced, kind] at extent ⊢
  case hostRead =>
    rw [(read rfl).1, (read rfl).2]
    exact extent
  case queueWrite =>
    obtain ⟨first, rest, queue, place⟩ := extent
    obtain ⟨rest, queue⟩ := head (.inl rfl) first rest queue
    exact ⟨first, rest, queue, place⟩
  case appendRead =>
    obtain ⟨writes, reads, first, rest, queue, place⟩ := extent
    obtain ⟨rest, queue⟩ := head (.inr rfl) first rest queue
    exact ⟨writes, reads, first, rest, queue, place⟩
  case appendWrite => rw [live (.inl rfl)]; exact extent
  case rollbackRead => rw [live (.inr (.inl rfl))]; exact extent
  case scanRead => rw [live (.inr (.inr (.inl rfl)))]; exact extent
  case restore => rw [restore rfl]; exact extent
  case zeroSlot =>
    obtain ⟨length, lanes, old, n, job, place⟩ := extent
    rw [format (.inr (.inl rfl)), live (.inr (.inr (.inr rfl)))]
    exact ⟨length, lanes, old, n, job, place⟩
  case formatAnchor => rw [format (.inr (.inr (.inr rfl)))]; exact extent
  case zeroAnchor c => rw [format (.inl ⟨c, rfl⟩)]; exact extent
  case formatConfig c => rw [format (.inr (.inr (.inl ⟨c, rfl⟩)))]; exact extent
  case arming i wanted =>
    refine ⟨extent.1, extent.2.1, fun on => ?_⟩
    rw [cell i (by rw [on])]
    exact extent.2.2 on
  all_goals exact extent

/-- An arming read that has lost its cell is placed wherever it reads. -/
theorem extentPlaced_discarded (extent : s.extentPlaced op) (kind : op.kind = .arming i true) :
    t.extentPlaced { op with kind := .arming i false } := by
  simp only [State.extentPlaced, kind] at extent
  exact ⟨extent.1, extent.2.1, nofun⟩

/-- A classification leaves the entries of the queue in front (R110). -/
theorem Classified.queue (h : Classified s t) : ∃ more, t.host.queue = s.host.queue ++ more := by
  cases h with
  | plain | hit => exact ⟨_, rfl⟩
  | claimed => rw [reserve_changes]; exact ⟨_, rfl⟩
  | _ => exact ⟨[], (List.append_nil _).symm⟩

theorem Classified.head (h : Classified s t) {head : QueueEntry} {rest : List QueueEntry}
    (queue : s.host.queue = head :: rest) : ∃ rest, t.host.queue = head :: rest := by
  obtain ⟨more, joined⟩ := h.queue
  exact ⟨rest ++ more, by rw [joined, queue]; rfl⟩

/-- An operation of FORMAT has one in progress. -/
theorem format_of_kind (extent : s.extentPlaced op)
    (kind : (∃ c, op.kind = .zeroAnchor c) ∨ op.kind = .zeroSlot ∨ (∃ c, op.kind = .formatConfig c) ∨ op.kind = .formatAnchor) :
    s.journal.format ≠ none := by
  rcases kind with ⟨c, k⟩ | k | ⟨c, k⟩ | k <;> simp only [State.extentPlaced, k] at extent
  · obtain ⟨-, -, -, job, format, -⟩ := extent; simp [format]
  · obtain ⟨-, -, old, n, format, -⟩ := extent; simp [format]
  · obtain ⟨-, -, -, job, format, -⟩ := extent; simp [format]
  · obtain ⟨-, -, -, job, format, -⟩ := extent; simp [format]

/-- A classification moves no operation in progress but that of the request it classifies. -/
theorem Classified.sameExtent (s : State)
    (read : k = .hostRead → s.classify.host.phase = s.host.phase ∧ s.classify.lines.presented = s.lines.presented) :
    SameExtent s s.classify k where
  read := read
  head _ _ _ queue := (classified s).head queue
  restore _ := by rw [classify_rollback]
  live _ := by rw [classify_journal]
  format _ := by rw [classify_journal]
  cell i _ := by rw [classify_monitors]

/-- The operation in progress as a cell is disarmed: an arming read of that cell loses it (R154, R155). -/
theorem disarm_op (s : State) (i : Fin 8) :
    (s.disarm i).port.op =
      s.port.op.map (fun op => if op.kind = .arming i true then { op with kind := .arming i false } else op) := by
  simp only [State.disarm, State.discardArming]
  cases busy : s.port.op with
  | none => exact busy
  | some op =>
    simp only [Option.map_some]
    split
    · rfl
    · exact busy

/-- A cancelled queue keeps a head under way (R113). -/
theorem cancelQueue_underWay {serial : Serial} {head : QueueEntry} {rest : List QueueEntry} (under : head.underWay = true) :
    ∃ kept, cancelQueue serial (head :: rest) = head :: kept := by
  simp [cancelQueue, under]

theorem extentPlaced_abort (law : s.shadowLaw) (live : s.epoch.state = .opened ∨ s.epoch.state = .doomed)
    (busy : s.port.op = some op) : (cancelled s).startAbortRun.extentPlaced op := by
  have ⟨_, work, _, _, _, _, extents⟩ := law
  rw [startAbortRun_changes]
  have run := run_none work (closing_ne_idle live) (by rcases live with h | h <;> simp [h])
  obtain ⟨-, -, -, -, ⟨-, -, -, spare, -⟩, ⟨-, -, owners⟩⟩ := id work
  obtain ⟨writes, appends, -⟩ := owners op busy
  refine SameExtent.extentPlaced (s := s) { head := fun kind head rest queue => ?_, restore := fun kind => ?_ } (extents op busy)
  · have under : head.underWay = true := by
      rcases kind with kind | kind
      · have progress := (writeInProgress_cons queue).symm.trans (writes kind)
        simp [QueueEntry.underWay, progress]
      · have progress := (appendInFlight_cons queue).symm.trans (appends (.inl kind))
        simp [QueueEntry.underWay, progress]
    show ∃ rest, cancelQueue s.epoch.serial s.host.queue = head :: rest
    rw [queue]
    exact cancelQueue_underWay under
  · obtain ⟨block, words, phase⟩ := (run_of_op work busy).2.1 kind
    exact nomatch (spare.1 run).symm.trans phase

theorem extentPlaced_switchFormat (law : s.shadowLaw) (drains : s.draining = true) (empty : s.host.queue = [])
    (busy : (formatSwitched s).port.op = some op) : (formatSwitched s).extentPlaced op := by
  have ⟨_, work, serial, _, _, _, extents⟩ := law
  obtain ⟨job, format, drain⟩ : ∃ job, s.journal.format = some job ∧ job.step = .drain := by
    cases format : s.journal.format with
    | none => simp [State.draining, format] at drains
    | some job => exact ⟨job, rfl, by simpa [State.draining, format] using drains⟩
  have phase := phase_of_format work serial (by simp [format])
  have done : s.control.step = .done := work.1.2.1.1 (serial.2.1 (by simp [format])).1
  have kept : ∀ o, s.port.op = some o →
      (∀ i, o.kind = .arming i true → (formatSwitched s).monitors[i] = s.monitors[i]) → (formatSwitched s).extentPlaced o := by
    intro o was cell
    have spare : ¬((∃ c, o.kind = .zeroAnchor c) ∨ o.kind = .zeroSlot ∨ (∃ c, o.kind = .formatConfig c) ∨
        o.kind = .formatAnchor) := fun kind => format_of_extent (extents o was) kind job format drain
    refine SameExtent.extentPlaced (s := s)
      { live := fun kind => ?_, format := fun kind => absurd kind spare, cell := cell } (extents o was)
    rcases kind with kind | kind | kind | kind
    · have flight := (((work.2.2.2.2.2).2.2 o was).2.1 (.inr kind))
      simp [State.appendInFlight, empty] at flight
    · exact nomatch phase.symm.trans ((run_of_op work was).1 kind)
    · exact nomatch done.symm.trans (((startOrder_iff.1 work.1).2 o was).2.2.1 kind)
    · exact absurd (.inr (.inl kind)) spare
  obtain ⟨o, was, now⟩ := Option.map_eq_some_iff.1 (show s.port.op.map _ = some op from busy)
  unfold State.discardJournalArming at now
  split at now
  next i kind =>
    split at now
    · subst now
      exact extentPlaced_discarded (extents o was) kind
    next other =>
      subst now
      refine kept o was fun j same => ?_
      cases kind.symm.trans same
      rw [formatSwitched_monitor, if_neg]
      rintro ⟨used, covers⟩
      exact other (Bool.and_eq_true_iff.2 ⟨bne_iff_ne.2 used, covers⟩)
  next other =>
    subst now
    exact kept o was fun j same => absurd same (other j)

theorem extentPlaced_change (law : s.shadowLaw) (step : Change s t) (busy : t.port.op = some op) : t.extentPlaced op := by
  have ⟨_, work, _, _, _, _, extents⟩ := law
  have gone : ∀ {P : Prop}, t.port.op = none → P := fun none => nomatch none.symm.trans busy
  have performing : s.port.op = some op → op.kind = .hostRead → s.host.phase = .performing ∧ s.lines.presented ≠ none := by
    intro was kind
    have extent := extents op was
    simp only [State.extentPlaced, kind] at extent
    obtain ⟨-, -, phase, r, shown, -⟩ := extent
    exact ⟨phase, by simp [shown]⟩
  cases step with
  | grant k up free next =>
    rw [grant_port] at busy
    cases busy
    exact extentPlaced_grant law next
  | present r up free =>
    rw [classify_port] at busy
    exact (Classified.sameExtent { s with lines := _ } fun kind => absurd free (performing busy kind).2).extentPlaced
      (SameExtent.extentPlaced (s := s) { read := fun kind => absurd free (performing busy kind).2 } (extents op busy))
  | classify asks =>
    rw [classify_port] at busy
    refine (Classified.sameExtent s fun kind => ?_).extentPlaced (extents op busy)
    have phase := (performing busy kind).1
    rcases asks with ⟨x, held⟩ | waits
    · exact nomatch held.symm.trans phase
    · exact nomatch waits.symm.trans phase
  | pauseRun =>
    rw [pauseRun_changes] at busy ⊢
    refine SameExtent.extentPlaced (s := s) { restore := fun kind => ?_ } (extents op busy)
    obtain ⟨block, words, phase⟩ := (run_of_op work busy).2.1 kind
    simp [State.pauseRun, phase]
  | holdRead waits =>
    exact SameExtent.extentPlaced (s := s)
      { read := fun kind => nomatch waits.symm.trans (performing busy kind).1 } (extents op busy)
  | abort free live =>
    rw [startAbortRun_changes] at busy
    exact extentPlaced_abort law live busy
  | startFormat ready free idle spare =>
    refine SameExtent.extentPlaced (s := s) { format := fun kind => ?_ } (extents op busy)
    have storing := (storing_iff s).2 (.inr (format_of_kind (extents op busy) kind))
    exact absurd (spare.symm.trans storing) (by decide)
  | switchFormat drains empty => exact extentPlaced_switchFormat law drains empty busy
  | editDescriptor => rw [storeTable_changes] at busy ⊢; exact extents op busy
  | editDefaults => rw [storeTable_changes] at busy ⊢; exact extents op busy
  | arm i addr mask compare trigger ready free apart =>
    refine SameExtent.extentPlaced (s := s) { cell := fun j kind => ?_ } (extents op busy)
    have extent := extents op busy
    simp only [State.extentPlaced, kind] at extent
    rw [set_get, if_neg]
    rintro rfl
    exact apart (extent.2.2 trivial).1
  | disarm i =>
    rw [disarm_op] at busy
    obtain ⟨o, was, now⟩ := Option.map_eq_some_iff.1 busy
    rw [disarm_changes]
    split at now
    next kind =>
      subst now
      exact extentPlaced_discarded (extents o was) kind
    next other =>
      subst now
      refine SameExtent.extentPlaced (s := s) { cell := fun j kind => ?_ } (extents o was)
      rw [set_get, if_neg]
      rintro rfl
      exact other kind
  | appendWrite => exact gone (by rw [headProgress_changes]; rfl)
  | cancelledAppend => exact gone (by rw [startAbortRun_changes]; rfl)
  | damagedRecord => exact gone (by unfold State.damagedRecord; rw [finishRecord_changes]; rfl)
  | restore => exact gone (by rw [finishRecord_changes]; rfl)
  | zeroed => exact gone (by rw [advanceFormat_changes]; rfl)
  | formatConfig => exact gone (by rw [advanceFormat_changes]; rfl)
  | frame | countFree | events | hold | age | begin | commit | stageJournal | save | restart => exact extents op busy
  | _ => exact gone rfl

/-! ## The law of R158 -/

theorem shadowLaw_resetBlocks (cause : ResetCause) (wf : s.memoryWf) : (s.resetBlocks cause).shadowLaw := by
  have unused : ∀ i : Fin 8, (s.resetBlocks cause).monitors[i].state = .disarmed :=
    fun i => congrArg Machine.Cell.state (Vector.getElem_replicate _)
  refine ⟨wf, workLaw_resetBlocks s cause, serialLaw_resetBlocks s cause,
    watchesApart_iff.2 ⟨⟨fun i used => absurd (unused i) used, fun _ => unused⟩, fun i armed => ?_⟩,
    ⟨fun zero => absurd rfl zero, nofun, nofun, nofun⟩, ⟨nofun, fun _ => rfl, nofun, nofun, nofun, fun _ => rfl⟩, nofun⟩
  rw [unused] at armed
  simp at armed

theorem kept_shadowLaw : Kept State.shadowLaw where
  pending _ _ law := law
  change s t law step := by
    have ⟨wf, work, serial, watches, places, waiting, extents⟩ := law
    exact ⟨kept_memoryWf.change s t wf step, workLaw_change work step, kept_serialLaw.change s t serial step,
      watchesApart_iff.2 ⟨cellsApart_change work (watchesApart_iff.1 watches).1 extents step, shadowsEqual_change law step⟩,
      locationsPlaced_change work serial places extents step, waitingPlaced_change work serial waiting extents step,
      fun op busy => extentPlaced_change law step busy⟩
  clearHold s law := by
    obtain ⟨wf, work, serial, watches, places, ⟨queue, early, preimage, restore, asks, free⟩, extents⟩ := law
    exact ⟨wf, work, serial, watches, places, ⟨queue, early, preimage, restore, asks, free⟩, extents⟩
  resumeRun s law := by
    obtain ⟨wf, work, serial, watches, places, waiting, extents⟩ := law
    refine ⟨?_, workLaw_resumeRun work, kept_serialLaw.resumeRun s serial, ?_, ?_, waitingPlaced_resumeRun waiting,
      fun op busy => ?_⟩
    · rw [resumeRun_changes]; exact wf
    · rw [resumeRun_changes]; exact watches
    · rw [resumeRun_changes]; exact places
    · rw [resumeRun_changes] at busy ⊢
      refine SameExtent.extentPlaced (s := s) { restore := fun kind => ?_ } (extents op busy)
      obtain ⟨block, words, phase⟩ := (run_of_op work busy).2.1 kind
      simp [State.resumeRun, phase]
  beginReset s l cause law presented on :=
    shadowLaw_resetBlocks cause (kept_memoryWf.beginReset s l cause law.1 presented on)
  endReset s l law free on presented := by
    obtain ⟨wf, work, serial, watches, places, ⟨queue, early, preimage, restore, asks, spare⟩, extents⟩ := law
    have free : s.port.op = none := free.elim spare id
    have chosen := classified { s with lines := l, control.hold := l.pfw, frame.phase := if l.csLow then .waitRise else .idle }
    refine ⟨kept_memoryWf.endReset s l wf (.inr free) on presented, kept_workLaw.endReset s l work (.inr free) on presented,
      kept_serialLaw.endReset s l serial (.inr free) on presented, ?_,
      chosen.locationsPlaced places (classify_journal _) (classify_control _),
      chosen.waitingPlaced ⟨queue, early, preimage, restore, fun waits => presented ▸ asks waits, fun _ => free⟩,
      fun op busy => ?_⟩
    · unfold State.watchesApart State.hostBlock State.endReset
      rw [classify_monitors, classify_control, classify_journal, classify_mem]
      exact watches
    · unfold State.endReset at busy
      rw [classify_port] at busy
      exact nomatch free.symm.trans busy
  line s l law down off presented := by
    obtain ⟨wf, work, serial, watches, places, ⟨queue, early, preimage, restore, asks, free⟩, extents⟩ := law
    exact ⟨wf, work, serial, watches, places,
      ⟨queue, early, preimage, restore, fun waits => presented (asks waits), fun _ => free down⟩,
      fun op busy => nomatch (free down).symm.trans busy⟩

/-- Settles O37: a write either is shown to the cells or lies where no cell in use may watch. -/
theorem shadowsFollowTheMemory : Obligations.ShadowsFollowTheMemory := kept_shadowLaw.step

end Sys2Proof.Proofs
end

section
-- One declaration at a time: each thread that waits for another reserves memory of the check.
set_option Elab.async false
/-! The management port: what every row answers, the decision of a frame whatever bytes its record holds so far, a row as
its frame byte by byte, the gates, and the bytes that decide nothing (chapter 11). -/

namespace Sys2Proof.Proofs
open Sys2Proof.Machine Sys2Proof.Laws

variable {i : Instr} {c : Command} {code : Byte} {args : List Byte} {s t : State}

/-! ## Every row answers -/

theorem exec_next (i : Instr) (s : State) : ∃ t, exec i s = .next t := by cases i <;> exact ⟨_, rfl⟩

theorem beginReset_pending (s : State) (cause : ResetCause) : (s.beginReset cause).pending = s.pending := by
  obtain ⟨m, n, -, cut⟩ := cutOperation_cases s
  rw [State.beginReset, cut]
  rfl

theorem endReset_pending (s : State) : s.endReset.pending = s.pending := classify_pending _

theorem resumeRun_pending (s : State) : s.resumeRun.pending = s.pending := by
  unfold State.resumeRun
  split <;> rfl

theorem leaveHold_pending (s : State) : ({ s with lines.pfw := false } : State).leaveHold.pending = s.pending := by
  have cleared : (holdCleared s).pending = s.pending := by
    unfold holdCleared State.reclassify
    split
    · exact classify_pending _
    · rfl
  rw [leaveHold_eq, resumeRun_pending, ← cleared]
  rcases clearGrant_cases (holdCleared s) with same | ⟨-, -, choice, -, granted⟩
  · rw [same]
  · rw [granted]
    split
    · rw [grant_changes]
    · rfl

/-- No row touches the queue of waiting commands. -/
theorem exec_pending (h : exec i s = .next t) : t.pending = s.pending := by
  rcases exec_cases h with changes | turn
  · exact changes.pending
  cases turn with
  | leaveHold => exact leaveHold_pending s
  | beginReset => exact beginReset_pending _ _
  | restart => exact (endReset_pending _).trans (beginReset_pending _ _)
  | endReset => exact endReset_pending _
  | line => rfl

/-! ## A decision does not look at the frame record -/

/-- The state with another frame record and another chip select line. -/
def framed (f : Frame) (low : Bool) (s : State) : State := { s with frame := f, lines.csLow := low }

variable {f : Frame} {low : Bool}

theorem acceptRead_framed (r : HostRequest) : (framed f low s).acceptRead r = framed f low (s.acceptRead r) := by
  have place : (framed f low s).lookup r.addr = s.lookup r.addr := rfl
  unfold State.acceptRead
  rw [place]
  simp only [apply_ite (framed f low)]
  cases s.lookup r.addr
  case region =>
    simp only [apply_ite (framed f low)]
    rfl
  all_goals rfl

theorem post_framed (r : HostRequest) (region : RegionIndex) (tag : Option Serial) (append : Option Append) :
    (framed f low s).post r region tag append = framed f low (s.post r region tag append) := by
  unfold State.post
  rw [apply_ite (framed f low)]
  rfl

theorem reserve_framed (block sequence : Nat) :
    (framed f low s).reserve block sequence = framed f low (s.reserve block sequence) := by
  unfold State.reserve
  rw [apply_ite (framed f low)]
  rfl

theorem journaledWrite_framed (r : HostRequest) (region : RegionIndex) :
    (framed f low s).journaledWrite r region = framed f low (s.journaledWrite r region) := by
  have claim : (framed f low s).claim = s.claim := rfl
  unfold State.journaledWrite
  rw [claim, post_framed]
  simp only [apply_ite (framed f low)]
  cases s.claim
  case granted sequence => simp only [reserve_framed, post_framed]; rfl
  all_goals rfl

theorem acceptWrite_framed (r : HostRequest) : (framed f low s).acceptWrite r = framed f low (s.acceptWrite r) := by
  have place : (framed f low s).lookup r.addr = s.lookup r.addr := rfl
  have fifth : ∀ region cls policy, (framed f low s).fifthStep r region cls policy = framed f low (s.fifthStep r region cls policy) := by
    intro region cls policy
    have state : (framed f low s).epoch.state = s.epoch.state := rfl
    unfold State.fifthStep
    rw [state, post_framed, journaledWrite_framed]
    cases cls <;> cases s.epoch.state <;> cases policy <;> rfl
  unfold State.acceptWrite
  rw [place]
  simp only [apply_ite (framed f low)]
  cases s.lookup r.addr
  case region =>
    simp only [apply_ite (framed f low), fifth]
    rfl
  all_goals rfl

theorem classify_framed : (framed f low s).classify = framed f low s.classify := by
  have shown : (framed f low s).lines.presented = s.lines.presented := rfl
  unfold State.classify
  rw [shown]
  cases s.lines.presented with
  | none => rfl
  | some r =>
    dsimp only
    cases r.kind with
    | read => exact acceptRead_framed (s := { s with host.phase := .classifying }) r
    | write => exact acceptWrite_framed (s := { s with host.phase := .classifying }) r

theorem reclassify_framed (x : HoldReason) : (framed f low s).reclassify x = framed f low (s.reclassify x) := by
  unfold State.reclassify
  rw [apply_ite (framed f low), classify_framed]
  rfl

theorem reclassifyGrantWait_framed : (framed f low s).reclassifyGrantWait = framed f low s.reclassifyGrantWait := by
  unfold State.reclassifyGrantWait
  rw [apply_ite (framed f low), classify_framed]
  rfl

theorem drainNotice_framed : (framed f low s).drainNotice = framed f low s.drainNotice := by
  have switch : (framed f low s).formatSwitch = framed f low s.formatSwitch :=
    reclassify_framed (s := formatSwitched s) .formatDrain
  unfold State.drainNotice
  rw [apply_ite (framed f low), switch]
  rfl

theorem leaveNotices_framed : (framed f low s).leaveNotices = framed f low s.leaveNotices := by
  have blockOrder : ∀ u : State, (framed f low u).blockOrderNotice = framed f low u.blockOrderNotice := by
    intro u
    have shown : (framed f low u).lines.presented = u.lines.presented := rfl
    unfold State.blockOrderNotice
    rw [shown, reclassify_framed]
    cases u.lines.presented with
    | none => rfl
    | some r => exact (apply_ite (framed f low) _ _ _).symm
  rw [State.leaveNotices, reclassify_framed, blockOrder, drainNotice_framed]
  rfl

theorem abortEpoch_framed : (framed f low s).abortEpoch = framed f low s.abortEpoch := by
  have start : ∀ u : State, (framed f low u).startAbortRun = framed f low u.startAbortRun := by
    intro u
    unfold State.startAbortRun
    rw [apply_ite (framed f low)]
    rfl
  have notices : ∀ (u : State) n, (framed f low u).cancelNotices n = framed f low (u.cancelNotices n) := by
    intro u n
    unfold State.cancelNotices
    rw [apply_ite (framed f low), leaveNotices_framed]
    rfl
  exact (congrArg (fun u => State.cancelNotices (State.reclassifyGrantWait u) s.host.queue.length)
    (start (cancelled s))).trans
    ((congrArg (fun u => State.cancelNotices u s.host.queue.length) reclassifyGrantWait_framed).trans (notices _ _))

theorem startFormat_framed : (framed f low s).startFormat = framed f low s.startFormat :=
  (congrArg State.drainNotice (reclassifyGrantWait_framed (s := formatStarted s))).trans drainNotice_framed

theorem storeTable_framed (x : RegionTable) : (framed f low s).storeTable x = framed f low (s.storeTable x) := by
  unfold State.storeTable
  rw [apply_ite (framed f low)]
  rfl

theorem disarm_framed (k : Fin 8) : (framed f low s).disarm k = framed f low (s.disarm k) := by
  have discard : ∀ u : State, (framed f low u).discardArming k = framed f low (u.discardArming k) := by
    intro u
    have op : (framed f low u).port.op = u.port.op := rfl
    unfold State.discardArming
    rw [op]
    cases u.port.op with
    | none => rfl
    | some op => simp only [apply_ite (framed f low)]; rfl
  exact discard { s with monitors := s.monitors.set k { s.monitors[k] with state := .disarmed } }

/-! ## The decision -/

/-- A decision whose state has another frame record and another chip select line. -/
def framedDecision (f : Frame) (low : Bool) (d : Decision) : Decision := { d with after := framed f low d.after }

theorem ownerRule_framed : ownerRule i (framed f low s) = framedDecision f low (ownerRule i s) := by
  have edited : (framed f low s).editedTable = s.editedTable := rfl
  have state : (framed f low s).epoch.state = s.epoch.state := rfl
  cases i
  case commit =>
    simp only [ownerRule, takeCommit, state]
    cases s.epoch.state <;> rfl
  case abort =>
    simp only [ownerRule, takeAbort, state, abortEpoch_framed]
    cases s.epoch.state <;> rfl
  case renew =>
    simp only [ownerRule, takeRenew, state]
    cases s.epoch.state <;> rfl
  case setRegion index valid first last cls width policy =>
    have store : ∀ k d, (framed f low s).storeDescriptor k d = framedDecision f low (s.storeDescriptor k d) := by
      intro k d
      rw [State.storeDescriptor, edited, storeTable_framed]
      rfl
    simp only [ownerRule, takeSetRegion, store, apply_ite (framedDecision f low), apply_dite (framedDecision f low)]
    cases validOfCode valid.toNat with
    | none => rfl
    | some v =>
      cases v
      · rfl
      · cases offeredDescriptor first last cls width policy with
        | none => rfl
        | some d => simp only [apply_ite (framedDecision f low)]; rfl
  case setDefaults cls ageLimit policy =>
    simp only [ownerRule, takeSetDefaults, edited, storeTable_framed, apply_ite (framedDecision f low)]
    cases DefaultClass.ofCode cls.toNat <;> cases AgePolicy.ofCode policy.toNat <;> rfl
  case format =>
    simp only [ownerRule, takeFormat, startFormat_framed, apply_ite (framedDecision f low)]
    rfl
  case disarmMonitor index =>
    simp only [ownerRule, takeDisarmMonitor, disarm_framed, apply_dite (framedDecision f low)]
    rfl
  case armMonitor index addr mask compare trigger =>
    simp only [ownerRule, takeArmMonitor, apply_ite (framedDecision f low), apply_dite (framedDecision f low)]
    cases Trigger.ofCode trigger.toNat with
    | none => rfl
    | some x => simp only [apply_ite (framedDecision f low)]; rfl
  case begin | readSet | setJournal | getRegion | saveConfig | getMonitor | clearEvents | setEventEnables =>
    simp only [ownerRule, takeBegin, takeReadSet, takeSetJournal, takeGetRegion, takeSaveConfig, takeGetMonitor,
      takeClearEvents, takeSetEventEnables, apply_ite (framedDecision f low), apply_dite (framedDecision f low)]
    rfl
  all_goals rfl

/-- What a frame carries is decided from the part as it stands, whatever bytes the frame record holds so far. -/
theorem decideFrame_framed :
    decideFrame code args (framed f low s) = framedDecision f low (decideFrame code args s) := by
  unfold decideFrame
  cases Command.ofCode code with
  | none => rfl
  | some c =>
    dsimp only
    cases decodeArgs c args with
    | none => simp only [apply_ite (framedDecision f low)]; rfl
    | some i =>
      simp only [State.gated, ownerRule_framed, apply_ite (framedDecision f low)]
      rfl

theorem settle_framed (d : Decision) : (framedDecision f low d).settle code args = d.settle code args := rfl

/-! ## Rows as frames up to their decision point -/

theorem argCount_of_frameOf (f : frameOf i = some (code, args)) (m : commandOf i = some c) :
    args.length = c.argCount := by
  cases i <;> cases m <;> cases f <;> rfl

theorem canDecide_iff : s.canDecide code args = true ↔ s.running = true ∧ s.frame.admits code args = true :=
  Bool.and_eq_true_iff

/-- A command row at its decision point settles what the gates and its owner's rule decide. -/
theorem exec_decides (f : frameOf i = some (c.code, args)) (m : commandOf i = some c)
    (q : s.canDecide c.code args = true) : exec i s = .next ((s.gated c (ownerRule i)).settle c.code args) :=
  (exec_of_frameOf f m s).trans (congrArg Host.Outcome.next (command_eq q))

theorem exec_badCommandFrame (q : s.canDecide code args = true) :
    exec (.badCommandFrame code args) s = .next ((decideFrame code args s).settle code args) :=
  congrArg Host.Outcome.next (if_pos q)

theorem decideFrame_unknown (unknown : Command.ofCode code = none) :
    decideFrame code args s = refusedWith .badCommand s := by
  simp only [decideFrame, unknown]

theorem decideFrame_length (known : Command.ofCode code = some c) (n : args.length ≠ c.argCount) :
    decideFrame code args s = refusedWith .badLength s := by
  simp only [decideFrame, known, if_neg n]

theorem decideFrame_command (f : frameOf i = some (c.code, args)) (m : commandOf i = some c) :
    decideFrame c.code args s = s.gated c (ownerRule i) := by
  have known : Command.ofCode c.code = some c := ofCode_code c
  have decodes : decodeArgs c args = some i := by
    have whole := frameRoundTrip i (wellFormed_of_commandOf m) _ _ f
    simpa only [decodeFrame, known] using whole
  simp only [decideFrame, known, if_pos (argCount_of_frameOf f m), decodes]

/-- A well-formed row at its decision point is decided as the frame it spells. -/
theorem exec_decideFrame (f : frameOf i = some (code, args)) (q : s.canDecide code args = true) :
    exec i s = .next ((decideFrame code args s).settle code args) := by
  rcases command_or_bad f with ⟨c, m, rfl⟩ | rfl
  · rw [exec_decides f m q, decideFrame_command f m]
  · exact exec_badCommandFrame q

theorem length_le_of_frameOf (f : frameOf i = some (code, args)) (w : i.wellFormed = true) : args.length ≤ 255 := by
  rcases command_or_bad f with ⟨c, m, rfl⟩ | rfl
  · rw [argCount_of_frameOf f m]
    cases c <;> decide
  · simp only [Instr.wellFormed, Bool.and_eq_true, decide_eq_true_eq] at w
    exact w.2

/-! ## The bytes at which a frame may be decided -/

theorem frameByte_count (p : s.frame.phase = .count) :
    s.frameByte 0 = (decideFrame s.frame.code [] s).settle s.frame.code [] := by
  simp only [State.frameByte, p, if_pos]

theorem frameByte_lastArgument {byte : Byte} (p : s.frame.phase = .arguments)
    (n : s.frame.args.length + 1 = s.frame.count.toNat) :
    s.frameByte byte =
      (decideFrame s.frame.code (s.frame.args ++ [byte]) s).settle s.frame.code (s.frame.args ++ [byte]) := by
  simp only [State.frameByte, p, if_pos n.symm.le]

/-! ## A row byte by byte -/

/-- The frame record with its code and its argument count received, and the arguments so far. -/
def receiving (code : Byte) (n : Nat) (done : List Byte) : Frame :=
  { phase := .arguments, code := code, count := byteOf n, args := done }

theorem toNat_byteOf {n : Nat} (h : n ≤ 255) : (byteOf n).toNat = n := by
  rw [byteOf, BitVec.toNat_ofNat, Nat.mod_eq_of_lt (by omega)]

theorem exec_byte (byte : Byte) (up : s.running = true) :
    exec (.managementByteComplete byte) s = .next (s.frameByte byte) := congrArg Host.Outcome.next (if_pos up)

/-- The arguments that remain take the record to its decision point. -/
theorem runAll_arguments {n : Nat} (up : s.running = true) (fits : n ≤ 255) :
    ∀ rest done : List Byte, rest ≠ [] → done.length + rest.length = n →
      runAll (rest.map Instr.managementByteComplete) (framed (receiving code n done) true s) =
        .next ((decideFrame code (done ++ rest) s).settle code (done ++ rest))
  | [], _, left, _ => absurd rfl left
  | byte :: rest, done, _, total => by
    have count : (byteOf n).toNat = n := toNat_byteOf fits
    rw [List.length_cons] at total
    rw [List.map_cons, runAll, exec_byte (s := framed (receiving code n done) true s) byte up]
    cases rest with
    | nil =>
      have last : (byteOf n).toNat ≤ done.length + 1 := by rw [count, ← total]; exact Nat.le_refl _
      have decides : (framed (receiving code n done) true s).frameByte byte =
          (decideFrame code (done ++ [byte]) s).settle code (done ++ [byte]) := by
        rw [← settle_framed (f := receiving code n done) (low := true), ← decideFrame_framed]
        exact if_pos last
      exact congrArg Host.Outcome.next decides
    | cons next rest =>
      have more : ¬(byteOf n).toNat ≤ done.length + 1 := by rw [count, ← total, List.length_cons]; omega
      have takes : (framed (receiving code n done) true s).frameByte byte =
          framed (receiving code n (done ++ [byte])) true s := if_neg more
      have onward := runAll_arguments up fits (next :: rest) (done ++ [byte]) (List.cons_ne_nil _ _)
        (by rw [List.length_append, List.length_singleton, List.length_cons]; rw [List.length_cons] at total; omega)
      rw [List.append_assoc, List.singleton_append] at onward
      exact (congrArg (runAll _) takes).trans onward

/-- From chip select high, a frame's bytes decide what the frame spells over the part as it stands. -/
theorem runAll_frameRows (up : s.running = true) (high : s.lines.csLow = false) (idle : s.frame.phase = .idle)
    (fits : args.length ≤ 255) :
    runAll (frameRows code args) s = .next ((decideFrame code args s).settle code args) := by
  have falls : exec .chipSelectFall s = .next (framed { phase := .code } true s) := by
    have shut : ¬s.lines.csLow = true := by rw [high]; exact Bool.false_ne_true
    exact congrArg Host.Outcome.next ((if_neg shut).trans (if_pos ⟨up, idle⟩))
  have coded : exec (.managementByteComplete code) (framed { phase := .code } true s) =
      .next (framed { phase := .count, code := code } true s) := exec_byte code up
  rw [frameRows, runAll, falls]
  dsimp only
  rw [runAll, coded]
  dsimp only
  rw [runAll, exec_byte (s := framed { phase := .count, code := code } true s) _ up]
  by_cases empty : args = []
  · subst empty
    have decides : (framed { phase := .count, code := code } true s).frameByte 0 =
        (decideFrame code [] s).settle code [] := by
      rw [← settle_framed (f := { phase := .count, code := code }) (low := true), ← decideFrame_framed]
      exact frameByte_count rfl
    exact congrArg Host.Outcome.next decides
  · have left : args.length ≠ 0 := fun zero => empty (List.length_eq_zero_iff.1 zero)
    have counts : byteOf args.length ≠ 0 := fun zero => left (by rw [← toNat_byteOf fits, zero]; rfl)
    have takes : (framed { phase := .count, code := code } true s).frameByte (byteOf args.length) =
        framed (receiving code args.length []) true s := if_neg counts
    exact (congrArg (runAll _) takes).trans (runAll_arguments up fits args [] empty (Nat.zero_add _))

/-! ## What the part drives -/

/-- The bit of a byte that follows those already clocked. -/
theorem dataOutBit_of_dataOut {b : Byte} (h : s.dataOut = some b) :
    s.dataOutBit = some (decide (b.toNat / 2 ^ (7 - s.frame.bits) % 2 = 1)) := by
  rw [State.dataOutBit, h, Option.map_some, BitVec.getLsbD, Nat.testBit_eq_decide_div_mod_eq]

theorem dataOut_of_running (up : s.running = true) : s.dataOut = s.frame.driven := if_pos up

end Sys2Proof.Proofs

namespace Sys2Proof.Proofs
open Sys2Proof.Machine Sys2Proof.Laws

/-- Settles O1: by the definition of a step, its front command or the clock pulse. -/
theorem stepRunsFrontCommand : Obligations.StepRunsFrontCommand := by
  refine ⟨fun c rest s front => by rw [step, front], fun s empty => ?_⟩
  have pulse : step s = .next s.clockPulse := by rw [step, empty]
  have moving : s.frame.phase.counts = true ↔ s.frame.phase ≠ .idle ∧ s.frame.phase ≠ .waitRise := by
    cases s.frame.phase <;> simp [FramePhase.counts]
  rw [pulse, State.clockPulse]
  refine ⟨fun up idle wait bits => by rw [if_pos ⟨up, moving.2 ⟨idle, wait⟩, bits⟩], fun still => ?_⟩
  rw [if_neg]
  rintro ⟨up, counts, bits⟩
  obtain ⟨idle, wait⟩ := moving.1 counts
  rcases still with down | idle' | wait' | full
  · exact Bool.false_ne_true (down.symm.trans up)
  · exact idle idle'
  · exact wait wait'
  · omega

/-- Settles O2: every row's meaning is a next state, and none is a change of the queue of waiting commands. -/
theorem everyCommandAnswersNext : Obligations.EveryCommandAnswersNext := by
  intro i s
  obtain ⟨t, next⟩ := exec_next i s
  exact ⟨t, next, exec_pending next⟩

/-- Settles O4: both sides decide the frame over the part as it stands. -/
theorem rowIsItsFrameByteByByte : Obligations.RowIsItsFrameByteByByte := by
  intro i code args s f w up high idle
  have fits := length_le_of_frameOf f w
  have admits : s.frame.admits code args = true := by simp [Frame.admits, idle, fits]
  rw [runAll_frameRows up high idle fits, exec_decideFrame f (canDecide_iff.2 ⟨up, admits⟩)]

/-- Settles O5: the codes named are those of the commands that the gates do not pass. -/
theorem gatesRefuseWithState : Obligations.GatesRefuseWithState := by
  intro i code args s f w q shut
  have known : ∀ x ∈ ([0x20, 0x21, 0x22, 0x23, 0x30, 0x31, 0x40, 0x42, 0x43, 0x50, 0x51] : List Byte),
      Command.ofCode x ≠ none := by decide
  have started : ∀ c : Command,
      c.code ∈ ([0x20, 0x21, 0x22, 0x23, 0x30, 0x31, 0x40, 0x42, 0x43, 0x50, 0x51] : List Byte) → startGate c = false := by
    intro c; cases c <;> decide
  have holding : ∀ c : Command, c.code ∈ ([0x20, 0x21, 0x22, 0x31, 0x43, 0x50] : List Byte) →
      holdGate c = false ∧ c.code ∈ ([0x20, 0x21, 0x22, 0x23, 0x30, 0x31, 0x40, 0x42, 0x43, 0x50, 0x51] : List Byte) := by
    intro c; cases c <;> decide
  have smaller : ∀ x ∈ ([0x20, 0x21, 0x22, 0x31, 0x43, 0x50] : List Byte), Command.ofCode x ≠ none := by decide
  rcases command_or_bad f with ⟨c, m, rfl⟩ | rfl
  · rw [exec_decides f m q, ← settle_refused]
    rcases gated_cases (s := s) (c := c) (own := ownerRule i) with ⟨refused, -⟩ | ⟨-, device, hold⟩
    · rw [refused]
    · rcases shut with ⟨early, named⟩ | ⟨held, named⟩
      · exact absurd (device.resolve_left early) (by rw [started c named]; exact Bool.false_ne_true)
      · have free := hold.resolve_left (by rw [held]; exact Bool.noConfusion)
        exact absurd free (by rw [(holding c named).1]; exact Bool.false_ne_true)
  · have unknown : Command.ofCode code = none := by
      simp only [Instr.wellFormed, Bool.and_eq_true, Option.isNone_iff_eq_none] at w
      exact w.1
    rcases shut with ⟨-, named⟩ | ⟨-, named⟩
    · exact absurd unknown (known code named)
    · exact absurd unknown (smaller code named)

/-- Settles O6: the decision comes before any owner's rule. -/
theorem badFramesReachNoBlock : Obligations.BadFramesReachNoBlock := by
  refine ⟨fun code args s unknown q => ?row, fun c s up p named n => ?count, fun code byte s up p named n => ⟨?code, ?length⟩⟩
  case row => rw [exec_badCommandFrame q, decideFrame_unknown unknown, settle_refused]
  case count =>
    have wrong : ([] : List Byte).length ≠ c.argCount := fun same => n same.symm
    rw [exec_byte 0 up, frameByte_count p, named, decideFrame_length (ofCode_code c) wrong, settle_refused]
  case code =>
    intro unknown
    rw [exec_byte byte up, frameByte_lastArgument p n, named, decideFrame_unknown unknown, settle_refused]
  case length =>
    intro c known wrong
    have other : (s.frame.args ++ [byte]).length ≠ c.argCount := by
      rw [List.length_append, List.length_singleton, n]
      exact wrong.symm
    rw [exec_byte byte up, frameByte_lastArgument p n, named, decideFrame_length known other, settle_refused]

/-- Settles O8: byte by byte, by the phase of the frame record. -/
theorem frameBytesAdvance : Obligations.FrameBytesAdvance := by
  intro byte s
  refine ⟨?outside, ?released, fun b => dataOutBit_of_dataOut, fun up => ?_⟩
  case outside =>
    intro still
    refine congrArg Host.Outcome.next (ite_eq_right_iff.2 fun up => ?_)
    rcases still with down | p | p
    · exact absurd (down.symm.trans up) Bool.false_ne_true
    · simp only [State.frameByte, p]
    · simp only [State.frameByte, p]
  case released =>
    intro still
    have none : s.dataOut = none := by
      rcases still with down | p
      · simp [State.dataOut, down]
      · simp [State.dataOut, Frame.driven, p]
    exact ⟨none, by rw [State.dataOutBit, none, Option.map_none]⟩
  rw [dataOut_of_running up, exec_byte byte up]
  refine ⟨?low, ?trailing, ?code, ?count, ?arguments, ?turnaround, ?status, ?replyCount, ?reply⟩
  case low =>
    rintro (p | p | p | p | p) <;> simp only [Frame.driven, p]
  case trailing =>
    intro p
    simp only [State.frameByte, Frame.nextReplyByte, p]
  case code =>
    intro p
    simp only [State.frameByte, p]
  case count =>
    intro p nonzero
    simp only [State.frameByte, p, if_neg nonzero]
  case arguments =>
    intro p more
    simp only [State.frameByte, p, if_neg (not_le.2 more)]
  case turnaround =>
    intro p
    simp only [Frame.driven, State.frameByte, Frame.nextReplyByte, p, true_and]
  case status =>
    intro st p outcome
    simp only [Frame.driven, State.frameByte, Frame.nextReplyByte, p, outcome, Option.map_some, Option.getD_some, true_and]
  case replyCount =>
    intro p
    simp only [Frame.driven, State.frameByte, Frame.nextReplyByte, p, byteOf, true_and]
  case reply =>
    intro b p here
    have drives : s.frame.reply.getD s.frame.index 0 = b := by rw [List.getD_eq_getElem?_getD, here, Option.getD_some]
    have phase : (if s.frame.reply.length ≤ s.frame.index + 1 then FramePhase.trailing else .reply) =
        if s.frame.index + 1 < s.frame.reply.length then .reply else .trailing := by
      by_cases last : s.frame.reply.length ≤ s.frame.index + 1
      · rw [if_pos last, if_neg (not_lt.2 last)]
      · rw [if_neg last, if_pos (not_le.1 last)]
    simp only [Frame.driven, State.frameByte, Frame.nextReplyByte, p, drives, phase, true_and]

/-- Settles O9: by chip select, the reset and the restart pending; a RESTART's reset ends at once, the operation cut short
under lines it does not look at. -/
theorem chipSelectBoundsTheFrame : Obligations.ChipSelectBoundsTheFrame := by
  refine ⟨?begins, ?moves, ?ends, ?down, ?restart⟩
  case begins =>
    intro s high up p
    simp only [exec, execChipSelectFall, high, up, p, Bool.false_eq_true, if_false, and_self, if_true]
  case moves =>
    intro s high still
    have shut : ¬(s.running = true ∧ s.frame.phase = .idle) := by
      rintro ⟨up, p⟩
      rcases still with down | moving
      · exact Bool.false_ne_true (down.symm.trans up)
      · exact moving p
    simp only [exec, execChipSelectFall, high, if_neg shut, Bool.false_eq_true, if_false]
  case ends =>
    intro s low up still
    simp only [exec, execChipSelectRise, State.endFrame, low, up, still, Bool.true_eq_false, Bool.false_eq_true, if_false,
      if_true]
  case down =>
    intro s low down
    simp only [exec, execChipSelectRise, low, down, Bool.true_eq_false, Bool.false_eq_true, if_false]
  case restart =>
    intro s low up pending
    simp only [exec, execChipSelectRise, State.endFrame, low, up, pending, Bool.true_eq_false, if_false, if_true]
    rw [State.beginReset, cutOperation_lines]
    obtain ⟨m, n, -, cut⟩ := cutOperation_cases s
    rw [cut]
    rfl

end Sys2Proof.Proofs
end

section
-- One declaration at a time: each thread that waits for another reserves memory of the check.
set_option Elab.async false
/-! The commands of the management port: what each answers, what each replies, and what each that edits a field leaves
(sections 1.5, 2.7, 3.6, 5.3 to 5.6, 9.6, 10.1 to 10.4, 11.3 and 11.5). -/

namespace Sys2Proof.Proofs
open Sys2Proof.Machine Sys2Proof.Laws

variable {i : Instr} {c : Command} {code : Byte} {args : List Byte} {s t : State} {d : Decision} {st : Status} {n : Nat}

/-! ## A command past its gates -/

/-- In READY with the hold flag clear a command settles what its owner's rule decides. -/
theorem exec_ready (f : frameOf i = some (c.code, args)) (m : commandOf i = some c) (q : s.canDecide c.code args = true)
    (ready : s.control.device = .ready) (free : s.control.hold = false) :
    exec i s = .next ((ownerRule i s).settle c.code args) := by
  rw [exec_decides f m q, gated_ready ready free]

/-- In READY a command that the hold gate does not name settles what its owner's rule decides. -/
theorem exec_passed (f : frameOf i = some (c.code, args)) (m : commandOf i = some c) (q : s.canDecide c.code args = true)
    (ready : s.control.device = .ready) (passes : holdGate c = true) :
    exec i s = .next ((ownerRule i s).settle c.code args) := by
  rw [exec_decides f m q, gated_held ready passes]

/-- A command that neither gate names settles what its owner's rule decides. -/
theorem exec_ungated (f : frameOf i = some (c.code, args)) (m : commandOf i = some c) (q : s.canDecide c.code args = true)
    (starts : startGate c = true) (passes : holdGate c = true) :
    exec i s = .next ((ownerRule i s).settle c.code args) := by
  rw [exec_decides f m q, gated_always starts passes]

/-! ## The status and the length of the reply -/

/-- A decision that refuses with a status of its own, or that takes the command with this status and reply length. -/
def Answers (s : State) (d : Decision) (st : Status) (n : Nat) : Prop :=
  (∃ x, x ≠ .ok ∧ x ≠ .accepted ∧ d = refusedWith x s) ∨ d.status = st ∧ d.reply.length = n

theorem answers_refused (x : Status) (ok : x ≠ .ok) (accepted : x ≠ .accepted) : Answers s (refusedWith x s) st n :=
  .inl ⟨x, ok, accepted, rfl⟩

/-- The status with which a command is taken, and its fixed reply length M (chapter 12.2). -/
def takenAs : Command → Status × Nat
  | .status => (.ok, 34)
  | .readEvents => (.ok, 6)
  | .clearEvents => (.ok, 3)
  | .setEventEnables => (.ok, 6)
  | .readFault | .clearFault => (.ok, 12)
  | .begin => (.ok, 4)
  | .commit | .abort | .format | .armMonitor => (.accepted, 0)
  | .renew | .disarmMonitor | .restart => (.ok, 0)
  | .readSet => (.ok, 50)
  | .setJournal => (.ok, 8)
  | .setRegion | .setDefaults => (.ok, 1)
  | .getRegion => (.ok, 26)
  | .saveConfig => (.accepted, 5)
  | .getMonitor => (.ok, 14)

theorem readSetReply_length (s : State) (start : Byte) : (readSetReply s start).length = 50 := by
  have fixed : ∀ e ∈ s.listed start.toNat, (SetEntry.bytes e).length = 5 := fun e _ => rfl
  have most : (s.listed start.toNat).length ≤ 8 := List.length_take_le _ _
  simp only [readSetReply, List.length_append, List.length_flatMap, List.map_congr_left fixed, List.map_const',
    List.sum_replicate, List.length_replicate, List.length_cons, List.length_nil, bytes32, bytes16, smul_eq_mul]
  omega

theorem faultReply_length (s : State) : (faultReply s).length = 12 := by
  unfold faultReply
  cases s.events.fault <;> rfl

theorem answers_setRegion (index valid : Byte) (first last : Word) (cls width policy : Byte) (s : State) :
    Answers s (takeSetRegion index valid first last cls width policy s) .ok 1 := by
  have stored : ∀ k x, Answers s (s.storeDescriptor k x) .ok 1 := fun k x => .inr ⟨rfl, rfl⟩
  unfold takeSetRegion
  split; · exact answers_refused _ (by decide) (by decide)
  split
  case isFalse => exact answers_refused _ (by decide) (by decide)
  split
  case h_1 => exact answers_refused _ (by decide) (by decide)
  case h_2 => exact stored _ _
  split
  case h_1 => exact answers_refused _ (by decide) (by decide)
  split
  · exact answers_refused _ (by decide) (by decide)
  · exact stored _ _

theorem answers_armMonitor (index : Byte) (addr : BitVec 24) (mask compare : Word) (trigger : Byte) (s : State) :
    Answers s (takeArmMonitor index addr mask compare trigger s) .accepted 0 := by
  unfold takeArmMonitor
  split
  case isFalse => exact answers_refused _ (by decide) (by decide)
  split; · exact answers_refused _ (by decide) (by decide)
  split
  case h_1 => exact answers_refused _ (by decide) (by decide)
  split; · exact answers_refused _ (by decide) (by decide)
  split; · exact answers_refused _ (by decide) (by decide)
  exact .inr ⟨rfl, rfl⟩

/-- What an owner's rule decides: a refusal that changes nothing, or the command taken with its fixed reply length. -/
theorem answers_ownerRule (m : commandOf i = some c) : Answers s (ownerRule i s) (takenAs c).1 (takenAs c).2 := by
  cases i <;> cases m
  case status | readEvents | restart => exact .inr ⟨rfl, rfl⟩
  case readFault | clearFault => exact .inr ⟨rfl, faultReply_length s⟩
  case clearEvents | setEventEnables =>
    simp only [ownerRule, takeClearEvents, takeSetEventEnables]
    split
    · exact .inr ⟨rfl, rfl⟩
    · exact answers_refused _ (by decide) (by decide)
  case begin =>
    simp only [ownerRule, takeBegin]
    split; · exact answers_refused _ (by decide) (by decide)
    split; · exact answers_refused _ (by decide) (by decide)
    split; · exact answers_refused _ (by decide) (by decide)
    split; · exact answers_refused _ (by decide) (by decide)
    exact .inr ⟨rfl, rfl⟩
  case commit =>
    simp only [ownerRule, takeCommit]
    split
    case h_1 => exact .inr ⟨rfl, rfl⟩
    all_goals exact answers_refused _ (by decide) (by decide)
  case abort | renew =>
    simp only [ownerRule, takeAbort, takeRenew]
    split
    case h_1 | h_2 => exact .inr ⟨rfl, rfl⟩
    all_goals exact answers_refused _ (by decide) (by decide)
  case readSet start =>
    simp only [ownerRule, takeReadSet]
    split
    · exact answers_refused _ (by decide) (by decide)
    · exact .inr ⟨rfl, readSetReply_length s start⟩
  case setJournal =>
    simp only [ownerRule, takeSetJournal]
    split; · exact answers_refused _ (by decide) (by decide)
    split; · exact answers_refused _ (by decide) (by decide)
    split; · exact answers_refused _ (by decide) (by decide)
    split; · exact answers_refused _ (by decide) (by decide)
    split; · exact answers_refused _ (by decide) (by decide)
    exact .inr ⟨rfl, rfl⟩
  case format =>
    simp only [ownerRule, takeFormat]
    split; · exact answers_refused _ (by decide) (by decide)
    split; · exact answers_refused _ (by decide) (by decide)
    split; · exact answers_refused _ (by decide) (by decide)
    split; · exact answers_refused _ (by decide) (by decide)
    exact .inr ⟨rfl, rfl⟩
  case setRegion => exact answers_setRegion ..
  case setDefaults =>
    simp only [ownerRule, takeSetDefaults]
    split; · exact answers_refused _ (by decide) (by decide)
    split
    · exact .inr ⟨rfl, rfl⟩
    · exact answers_refused _ (by decide) (by decide)
  case saveConfig =>
    simp only [ownerRule, takeSaveConfig]
    split; · exact answers_refused _ (by decide) (by decide)
    split; · exact answers_refused _ (by decide) (by decide)
    split; · exact answers_refused _ (by decide) (by decide)
    exact .inr ⟨rfl, rfl⟩
  case getRegion | getMonitor | disarmMonitor =>
    simp only [ownerRule, takeGetRegion, takeGetMonitor, takeDisarmMonitor]
    split
    · exact .inr ⟨rfl, rfl⟩
    · exact answers_refused _ (by decide) (by decide)
  case armMonitor => exact answers_armMonitor ..

/-- So of the gates and the owner's rule together. -/
theorem answers_gated (m : commandOf i = some c) : Answers s (s.gated c (ownerRule i)) (takenAs c).1 (takenAs c).2 := by
  rcases gated_cases (s := s) (c := c) (own := ownerRule i) with ⟨refused, -⟩ | ⟨taken, -⟩
  · rw [refused]
    exact answers_refused _ (by decide) (by decide)
  · rw [taken]
    exact answers_ownerRule m

/-- Nothing else carries a status that is neither OK nor ACCEPTED. -/
theorem Answers.refuses (a : Answers s d (takenAs c).1 n) (ok : d.status ≠ .ok) (accepted : d.status ≠ .accepted) :
    d = refusedWith d.status s := by
  rcases a with ⟨x, -, -, rfl⟩ | ⟨taken, -⟩
  · rfl
  · have known : (takenAs c).1 = .ok ∨ (takenAs c).1 = .accepted := by cases c <;> decide
    rw [← taken] at known
    exact absurd known (not_or.2 ⟨ok, accepted⟩)

/-- So of every frame, whatever its code and its length. -/
theorem decideFrame_refuses (ok : (decideFrame code args s).status ≠ .ok)
    (accepted : (decideFrame code args s).status ≠ .accepted) :
    decideFrame code args s = refusedWith (decideFrame code args s).status s := by
  cases known : Command.ofCode code with
  | none => rw [decideFrame_unknown known]; rfl
  | some c =>
    by_cases length : args.length = c.argCount
    · simp only [decideFrame, known, if_pos length] at ok accepted ⊢
      cases decoded : decodeArgs c args with
      | none => rfl
      | some i =>
        rw [decoded] at ok accepted
        exact (answers_gated (frameOf_of_decodeArgs decoded).2).refuses ok accepted
    · rw [decideFrame_length known length]; rfl

/-! ## The codes of the port -/

theorem ofCode_regionClass (x : RegionClass) : RegionClass.ofCode x.code.toNat = some x := by cases x <;> rfl

theorem ofCode_width (x : Width) : Width.ofCode x.code.toNat = some x := by cases x <;> rfl

theorem ofCode_outsidePolicy (x : OutsidePolicy) : OutsidePolicy.ofCode x.code.toNat = some x := by cases x <;> rfl

theorem ofCode_defaultClass (x : DefaultClass) : DefaultClass.ofCode x.code.toNat = some x := by cases x <;> rfl

theorem ofCode_agePolicy (x : AgePolicy) : AgePolicy.ofCode x.code.toNat = some x := by cases x <;> rfl

theorem regionClass_unlisted (h : 2 < n) : RegionClass.ofCode n = none := by
  unfold RegionClass.ofCode; split <;> first | rfl | omega

theorem width_unlisted (h : 1 < n) : Width.ofCode n = none := by
  unfold Width.ofCode; split <;> first | rfl | omega

theorem outsidePolicy_unlisted (h : 1 < n) : OutsidePolicy.ofCode n = none := by
  unfold OutsidePolicy.ofCode; split <;> first | rfl | omega

theorem defaultClass_unlisted (h : 1 < n) : DefaultClass.ofCode n = none := by
  unfold DefaultClass.ofCode; split <;> first | rfl | omega

theorem agePolicy_unlisted (h : 1 < n) : AgePolicy.ofCode n = none := by
  unfold AgePolicy.ofCode; split <;> first | rfl | omega

theorem trigger_unlisted (h : 1 < n) : Trigger.ofCode n = none := by
  unfold Trigger.ofCode; split <;> first | rfl | omega

theorem valid_unlisted (h : 1 < n) : validOfCode n = none := by
  unfold validOfCode; split <;> first | rfl | omega

/-! ## The listing of the set -/

/-- The bytes of a position of the READ_SET reply: those of its entry, or zeros beyond the entry count (R36). -/
def positionBytes : Option SetEntry → List Byte
  | some e => e.bytes
  | none => [0, 0, 0, 0, 0]

/-- At most n entries of a list and zeros beyond them: the same bytes position by position. -/
theorem flatMap_take_padded :
    ∀ (n : Nat) (l : List SetEntry),
      (l.take n).flatMap SetEntry.bytes ++ List.replicate (5 * (n - (l.take n).length)) (0 : Byte) =
        (List.range n).flatMap fun j => positionBytes l[j]?
  | 0, l => by simp
  | n + 1, [] => by
    have rest := flatMap_take_padded n []
    simp only [List.take_nil, List.flatMap_nil, List.nil_append, List.length_nil, Nat.sub_zero, List.getElem?_nil] at rest ⊢
    rw [List.range_succ_eq_map, List.flatMap_cons, List.flatMap_map, ← rest, Nat.mul_succ, Nat.add_comm,
      List.replicate_add]
    rfl
  | n + 1, e :: l => by
    have rest := flatMap_take_padded n l
    rw [List.range_succ_eq_map, List.flatMap_cons, List.flatMap_map, List.take_succ_cons, List.flatMap_cons,
      List.length_cons, Nat.add_sub_add_right, List.append_assoc, rest]
    rfl

theorem listed_bytes (s : State) (start : Nat) :
    (s.listed start).flatMap SetEntry.bytes ++ List.replicate (5 * (8 - (s.listed start).length)) (0 : Byte) =
      (List.range 8).flatMap fun j => positionBytes s.loggedSet[start + j]? := by
  rw [State.listed, flatMap_take_padded]
  simp only [List.getElem?_drop]

/-! ## The flags -/

theorem events_raise_bit (e : Events) (f : EventFlag) {k : Nat} (h : k < 22) :
    (e.raise f).flags.getLsbD k = (e.flags.getLsbD k || decide (k = f.position)) := by
  have bit : f.mask.getLsbD k = decide (k = f.position) := by
    simp [EventFlag.mask, h]
  rw [← bit]
  exact BitVec.getLsbD_or

theorem attn_iff (s : State) :
    s.attn = true ↔ ∃ k, k < 22 ∧ s.events.flags.getLsbD k = true ∧ s.events.enables.getLsbD k = true := by
  rw [State.attn, bne_iff_ne]
  constructor
  · intro some
    by_contra none
    push Not at none
    refine some (BitVec.eq_of_getLsbD_eq fun k lt => ?_)
    rw [BitVec.getLsbD_and, Bool.and_eq_false_imp.2 fun flag => Bool.eq_false_iff.2 (none k lt flag)]
    exact (BitVec.getLsbD_zero).symm
  · rintro ⟨k, lt, flag, enable⟩ zero
    have bit := congrArg (fun v => BitVec.getLsbD v k) zero
    simp [flag, enable] at bit

/-! ## The epoch's commands -/

theorem takeCommit_opened (e : s.epoch.state = .opened) :
    takeCommit s =
      { status := .accepted, reply := []
        after := { s with epoch := { s.epoch with state := .closing, ageRunning := false } } } := by
  simp only [takeCommit, e]

theorem takeCommit_doomed (e : s.epoch.state = .doomed) : takeCommit s = refusedWith .doomed s := by
  simp only [takeCommit, e]

theorem takeCommit_refused (e : s.epoch.state = .idle ∨ s.epoch.state = .closing ∨ s.epoch.state = .rollingBack) :
    takeCommit s = refusedWith .state s := by
  rcases e with e | e | e <;> simp only [takeCommit, e]

theorem takeAbort_taken (e : s.epoch.state = .opened ∨ s.epoch.state = .doomed) (f : s.journal.format = none) :
    takeAbort s = { status := .accepted, reply := [], after := s.aborted } := by
  rw [← abortEpoch_eq s f]
  rcases e with e | e <;> simp only [takeAbort, e]

theorem takeAbort_refused (e : s.epoch.state = .idle ∨ s.epoch.state = .closing ∨ s.epoch.state = .rollingBack) :
    takeAbort s = refusedWith .state s := by
  rcases e with e | e | e <;> simp only [takeAbort, e]

/-- The cancellation keeps the entries of another tag, in order (R113). -/
theorem keptQueue_filter (s : State) :
    s.keptQueue.filter (fun e => decide (e.tag ≠ some s.epoch.serial)) =
      s.host.queue.filter (fun e => decide (e.tag ≠ some s.epoch.serial)) := by
  unfold State.keptQueue
  cases s.host.queue with
  | nil => rfl
  | cons head rest =>
    dsimp only
    rw [List.filter_append, List.filter_filter]
    simp only [Bool.and_self]
    split
    next gone => rw [List.filter_cons_of_neg (by simp [gone.1])]; rfl
    next stays =>
      by_cases tag : head.tag = some s.epoch.serial <;> simp [tag]

theorem keptQueue_sublist (s : State) : List.Sublist s.keptQueue s.host.queue := by
  rw [← cancelQueue_eq]
  exact cancelQueue_sublist _ _

/-- Of the epoch's own entries it keeps a head alone whose append or word write is under way (R113). -/
theorem keptQueue_tagged {e : QueueEntry} (kept : e ∈ s.keptQueue) (tag : e.tag = some s.epoch.serial) :
    s.host.queue.head? = some e ∧ s.keptQueue.head? = some e ∧
      (e.progress = .appendInFlight ∨ e.progress = .writeInProgress) := by
  unfold State.keptQueue at kept ⊢
  cases queue : s.host.queue with
  | nil => simp [queue] at kept
  | cons head rest =>
    rw [queue] at kept
    dsimp only at kept ⊢
    have other : e ∉ rest.filter (fun x => decide (x.tag ≠ some s.epoch.serial)) := fun mem => by
      simpa [tag] using (List.mem_filter.1 mem).2
    have front := (List.mem_append.1 kept).resolve_right other
    split at front
    · exact absurd front List.not_mem_nil
    next stays =>
      obtain rfl := List.mem_singleton.1 front
      rw [if_neg stays]
      refine ⟨rfl, rfl, ?_⟩
      by_contra still
      push Not at still
      exact stays ⟨tag, still⟩

end Sys2Proof.Proofs

namespace Sys2Proof.Proofs
open Sys2Proof.Machine Sys2Proof.Laws

/-- Settles O7: no rule refuses with OK or ACCEPTED, and each takes its command with its own status and reply length. -/
theorem decidedFramesHaveTheirReply : Obligations.DecidedFramesHaveTheirReply := by
  refine ⟨fun i code args s t st f q next outcome ok accepted => ?refused, fun i code args s t f w q next taken => ?taken⟩
  case refused =>
    obtain rfl := Host.Outcome.next.inj ((exec_decideFrame f q).symm.trans next)
    obtain rfl : (decideFrame code args s).status = st := Option.some.inj outcome
    exact (congrArg (fun d => Decision.settle d code args) (decideFrame_refuses ok accepted)).trans (settle_refused _ _)
  case taken =>
    rcases command_or_bad f with ⟨c, m, rfl⟩ | rfl
    · obtain rfl := Host.Outcome.next.inj ((exec_decides f m q).symm.trans next)
      rcases answers_gated (s := s) m with ⟨x, ok, accepted, refused⟩ | ⟨status, length⟩
      · rw [refused] at taken
        exact absurd taken (by simp [Decision.settle, decidedFrame, refusedWith, ok, accepted])
      · have outcome : ((s.gated c (ownerRule i)).settle c.code args).frame.outcome = some (takenAs c).1 :=
          congrArg some status
        have reply : ((s.gated c (ownerRule i)).settle c.code args).frame.reply.length = (takenAs c).2 := length
        rw [outcome, reply]
        cases c <;> decide
    · have unknown : Command.ofCode code = none := by
        simp only [Instr.wellFormed, Bool.and_eq_true, Option.isNone_iff_eq_none] at w
        exact w.1
      obtain rfl := Host.Outcome.next.inj ((exec_badCommandFrame q).symm.trans next)
      rw [decideFrame_unknown unknown] at taken
      exact absurd taken (by simp [Decision.settle, decidedFrame, refusedWith])

/-- Settles O10: neither gate names STATUS. -/
theorem statusReportsEveryField : Obligations.StatusReportsEveryField := by
  intro s q
  have staged : boolCode s.regions.staged.isSome = if s.regions.staged = none then 0 else 1 := by
    cases s.regions.staged <;> rfl
  rw [exec_ungated (i := .status) (c := .status) rfl rfl q rfl rfl, settle_eq, ← staged]
  rfl

/-- Settles O12: each index against its bound, and the reply field by field. -/
theorem indexedReadsReplyEveryField : Obligations.IndexedReadsReplyEveryField := by
  refine ⟨fun start s q => ?readSet, fun index s q => ?getRegion, fun index s q => ?getMonitor⟩
  case readSet =>
    rw [exec_ungated (i := .readSet start) (c := .readSet) rfl rfl q rfl rfl]
    refine ⟨fun above => ?_, fun within => ?_⟩
    · rw [ownerRule, takeReadSet, if_pos (Nat.succ_le_of_lt above), settle_refused]
      rfl
    · have count : (s.listed start.toNat).length = min 8 (s.loggedSet.length - start.toNat) := by
        rw [State.listed, List.length_take, List.length_drop]
      have position : ∀ x, positionBytes x =
          match x with
          | some e =>
            bytes16 (BitVec.ofNat 16 e.block) ++ [if e.state = .pending then 0 else 1] ++
              bytes16 (BitVec.ofNat 16 e.sequence)
          | none => [0, 0, 0, 0, 0] := by
        intro x
        cases x with
        | none => rfl
        | some e =>
          obtain ⟨block, state, sequence⟩ := e
          cases state <;> rfl
      have below : ¬65 ≤ start.toNat := by omega
      rw [ownerRule, takeReadSet, if_neg below, settle_eq, ← count, readSetReply, List.append_assoc _ (List.flatMap _ _),
        listed_bytes]
      simp only [position]
      rfl
  case getRegion =>
    rw [exec_ungated (i := .getRegion index) (c := .getRegion) rfl rfl q rfl rfl]
    refine ⟨fun above => ?_, fun h staged table => ?_⟩
    · rw [ownerRule, takeGetRegion, dif_neg (by omega), settle_refused]
      rfl
    · have shown : s.regions.staged.getD s.regions.live = staged := by
        rcases table with some | ⟨none, live⟩
        · rw [some, Option.getD_some]
        · rw [none, live, Option.getD_none]
      have flag : boolCode s.regions.staged.isSome = if s.regions.staged = none then 0 else 1 := by
        cases s.regions.staged <;> rfl
      rw [ownerRule, takeGetRegion, dif_pos h, settle_eq, ← shown, ← flag]
      rfl
  case getMonitor =>
    rw [exec_ungated (i := .getMonitor index) (c := .getMonitor) rfl rfl q rfl rfl]
    refine ⟨fun above => ?_, fun h => ?_⟩
    · rw [ownerRule, takeGetMonitor, dif_neg (by omega), settle_refused]
      rfl
    · rw [ownerRule, takeGetMonitor, dif_pos h, settle_eq]
      rfl

/-- Settles O13: each command's effect is its own field, a flag raised is its bit, and ATTN looks for a bit set twice. -/
theorem eventCommandsActOnTheirFields : Obligations.EventCommandsActOnTheirFields := by
  refine ⟨⟨fun mask s q => ?clear, fun mask s q => ?enables, fun s q => ?fault, fun s q => ?restart⟩,
    fun s f k h => events_raise_bit s.events f h, fun s f => rfl, attn_iff⟩
  case clear =>
    rw [exec_clearEvents q, takeClearEvents]
    by_cases inRange : mask.toNat < 4194304
    · rw [if_pos ((maskInRange_iff mask).2 inRange), if_neg (not_le.2 inRange)]
      rfl
    · rw [if_neg (mt (maskInRange_iff mask).1 inRange), if_pos (not_lt.1 inRange), settle_refused]
  case enables =>
    rw [exec_setEventEnables q, takeSetEventEnables]
    by_cases inRange : mask.toNat < 4194304
    · have whole : (mask.setWidth 22).setWidth 24 = mask :=
        BitVec.eq_of_toNat_eq (by simp; omega)
      rw [if_pos ((maskInRange_iff mask).2 inRange), if_neg (not_le.2 inRange), settle_eq, flagBytes, whole]
      rfl
    · rw [if_neg (mt (maskInRange_iff mask).1 inRange), if_pos (not_lt.1 inRange), settle_refused]
  case fault =>
    have up := (canDecide_iff.1 q).1
    have read : ({ s with frame := {} } : State).canDecide 0x14 [] = true := canDecide_iff.2 ⟨up, rfl⟩
    exact ⟨faultReply s, exec_readFault read, exec_clearFault q⟩
  case restart => exact exec_ungated (i := .restart) (c := .restart) rfl rfl q rfl rfl

/-- Settles O15: by the epoch's state. -/
theorem commitClosesAnOpenEpoch : Obligations.CommitClosesAnOpenEpoch := by
  intro s q ready free
  rw [exec_ready (i := .commit) (c := .commit) rfl rfl q ready free, ownerRule]
  refine ⟨fun e => ?_, fun e => ?_, fun e => ?_⟩
  · rw [takeCommit_opened e]; rfl
  · rw [takeCommit_doomed e]; rfl
  · rw [takeCommit_refused e]; rfl

/-- Settles O16: by the epoch's state, and the queue that a cancellation keeps. -/
theorem abortCancelsAndRollsBack : Obligations.AbortCancelsAndRollsBack := by
  refine ⟨fun s q ready free => ?_, fun s => ⟨keptQueue_filter s, keptQueue_sublist s, fun e kept => keptQueue_tagged kept⟩⟩
  rw [exec_ready (i := .abort) (c := .abort) rfl rfl q ready free, ownerRule]
  refine ⟨fun e f => ?_, fun e => ?_⟩
  · rw [takeAbort_taken e f]; rfl
  · rw [takeAbort_refused e]; rfl

end Sys2Proof.Proofs
end

section
-- One declaration at a time: each thread that waits for another reserves memory of the check.
set_option Elab.async false
/-! The commands that edit: the journal location, the region table and the defaults, SAVE_CONFIG's request, and the cells
(sections 3.6, 5.3 to 5.5, 9.1, 9.2 and 9.4). -/

namespace Sys2Proof.Proofs
open Sys2Proof.Machine Sys2Proof.Laws

variable {i : Instr} {c : Command} {code : Byte} {args : List Byte} {s t : State} {n : Nat}

theorem storing_eq_true (h : s.regions.saving = true ∨ s.journal.format ≠ none) : s.storing = true := (storing_iff s).2 h

theorem storing_eq_false (saving : s.regions.saving = false) (format : s.journal.format = none) : s.storing = false := by
  simp [State.storing, saving, format]

theorem any_some_iff {α : Type} {o : Option α} {p : α → Bool} : o.any p = true ↔ ∃ x, o = some x ∧ p x = true := by
  cases o <;> simp

/-! ## SET_JOURNAL (R54) -/

theorem overlapsArea_table_iff {x : RegionTable} {l : Location} :
    x.overlapsArea l = true ↔ ∃ k : Fin 16, x.descs[k].overlapsArea l = true := any_toList_iff _ _

theorem watchedIn_iff {l : Location} :
    s.watchedIn l = true ↔
      ∃ k : Fin 8, s.monitors[k].state ≠ .disarmed ∧ l.covers (s.monitors[k].addr.toNat / 16) = true := by
  rw [State.watchedIn, any_toList_iff]
  simp only [Bool.and_eq_true, bne_iff_ne]
  rfl

theorem takeSetJournal_badArgument {base slots : Word} (free : s.storing = false)
    (bad : slots.toNat = 0 ∨ 4096 < slots.toNat ∨ 65535 < base.toNat + (22 * slots.toNat + 15) / 16 - 1) :
    takeSetJournal base slots s = refusedWith .badArgument s := by
  have shut : slots = 0 ∨ Config.maxSlots < slots.toNat ∨ Config.lastBlock < Location.last { base := base, slots := slots } :=
    bad.imp_left fun zero => BitVec.eq_of_toNat_eq zero
  rw [takeSetJournal, if_neg (by rw [free]; exact Bool.false_ne_true), if_pos shut]

/-- Past the first checks: a conflict, or the location staged. -/
theorem takeSetJournal_fits {base slots : Word} (free : s.storing = false) (some : 1 ≤ slots.toNat)
    (fits : slots.toNat ≤ 4096) (last : base.toNat + (22 * slots.toNat + 15) / 16 - 1 ≤ 65535) :
    takeSetJournal base slots s =
      if base.toNat < 9 ∨ s.regions.live.overlapsArea { base := base, slots := slots } = true ∨
          s.regions.staged.any (fun t => t.overlapsArea { base := base, slots := slots }) = true ∨
          s.watchedIn { base := base, slots := slots } = true then
        refusedWith .conflict s
      else
        { status := .ok
          reply := bytes16 s.journal.live.base ++ bytes16 s.journal.live.slots ++ bytes16 base ++ bytes16 slots
          after := { s with journal.staged := Option.some { base := base, slots := slots } } } := by
  have within : ¬(slots = 0 ∨ Config.maxSlots < slots.toNat ∨
      Config.lastBlock < Location.last { base := base, slots := slots }) := by
    rintro (zero | many | far)
    · rw [zero] at some; exact absurd some (by decide)
    · exact absurd fits (not_le.2 many)
    · exact absurd last (not_le.2 far)
  rw [takeSetJournal, if_neg (by rw [free]; exact Bool.false_ne_true), if_neg within]
  by_cases low : base.toNat < 9
  · rw [if_pos (show base.toNat < Config.firstFreeBlock from low), if_pos (.inl low)]
  rw [if_neg (show ¬base.toNat < Config.firstFreeBlock from low)]
  by_cases apart : s.regions.live.overlapsArea { base := base, slots := slots } = true ∨
      s.regions.staged.any (fun t => t.overlapsArea { base := base, slots := slots }) = true
  · rw [if_pos apart, if_pos (.inr (or_assoc.1 (.inl apart)))]
  rw [if_neg apart]
  simp only [low, false_or, ← or_assoc, apart]

/-! ## SET_REGION and SET_DEFAULTS (R83 to R86) -/

variable {index valid cls width policy : Byte} {first last : Word} {k : Fin 16} {d : Descriptor}

theorem conflicts_iff :
    s.conflicts k d = true ↔
      d.first.toNat < 9 ∨ d.overlapsArea s.journal.live = true ∨
        (∃ l, s.journal.staged = some l ∧ d.overlapsArea l = true) ∨
        ∃ j : Fin 16, j.val ≠ k.val ∧ d.overlaps s.editedTable.descs[j] = true := by
  simp only [State.conflicts, Bool.or_eq_true, decide_eq_true_eq, any_some_iff, List.any_eq_true, List.mem_finRange,
    true_and, Bool.and_eq_true, bne_iff_ne, or_assoc, ne_eq, Fin.ext_iff]
  rfl

theorem storeTable_idle (idle : s.epoch.state = .idle) (x : RegionTable) :
    s.storeTable x = { s with regions.live := x } := if_pos idle

theorem storeTable_other (other : s.epoch.state ≠ .idle) (x : RegionTable) :
    s.storeTable x = { s with regions.staged := some x } := if_neg other

theorem editedTable_idle (idle : s.epoch.state = .idle) : s.editedTable = s.regions.live := if_pos idle

theorem editedTable_other (other : s.epoch.state ≠ .idle) : s.editedTable = s.regions.staged.getD s.regions.live :=
  if_neg other

theorem editReply_idle (idle : s.epoch.state = .idle) : s.editReply = [0] := by rw [State.editReply, idle]; rfl

theorem editReply_other (other : s.epoch.state ≠ .idle) : s.editReply = [1] := by
  rw [State.editReply, bne_iff_ne.2 other]; rfl

/-- A byte that is no listed code, or a pair of blocks out of order, is no descriptor (R83). -/
theorem offeredDescriptor_bad
    (bad : 2 < cls.toNat ∨ 1 < width.toNat ∨ 1 < policy.toNat ∨ last.toNat < first.toNat) :
    offeredDescriptor first last cls width policy = none := by
  unfold offeredDescriptor
  split
  case h_2 => rfl
  next c w p class_ width_ policy_ =>
    rcases bad with h | h | h | h
    · rw [regionClass_unlisted h] at class_; cases class_
    · rw [width_unlisted h] at width_; cases width_
    · rw [outsidePolicy_unlisted h] at policy_; cases policy_
    · exact if_neg (not_le.2 h)

theorem offeredDescriptor_codes (order : d.first.toNat ≤ d.last.toNat) (valid : d.valid = true) :
    offeredDescriptor d.first d.last d.cls.code d.width.code d.policy.code = some d := by
  obtain ⟨v, first, last, cls, width, policy⟩ := d
  obtain rfl : v = true := valid
  simp only [offeredDescriptor, ofCode_regionClass, ofCode_width, ofCode_outsidePolicy, if_pos order]

theorem takeSetRegion_badArgument (free : s.storing = false)
    (bad : 15 < index.toNat ∨ 1 < valid.toNat ∨
      valid = 1 ∧ (2 < cls.toNat ∨ 1 < width.toNat ∨ 1 < policy.toNat ∨ last.toNat < first.toNat)) :
    takeSetRegion index valid first last cls width policy s = refusedWith .badArgument s := by
  rw [takeSetRegion, if_neg (by rw [free]; exact Bool.false_ne_true)]
  by_cases h : index.toNat < 16
  · rw [dif_pos h]
    rcases bad with above | unlisted | ⟨rfl, fields⟩
    · exact absurd above (by omega)
    · rw [valid_unlisted unlisted]
    · rw [offeredDescriptor_bad fields]
      rfl
  · rw [dif_neg h]

/-- A descriptor offered with valid yes conflicts, or is stored. -/
theorem takeSetRegion_valid (free : s.storing = false) (h : index.toNat < 16)
    (offered : offeredDescriptor first last cls width policy = some d) :
    takeSetRegion index 1 first last cls width policy s =
      if s.conflicts ⟨index.toNat, h⟩ d = true then refusedWith .conflict s else s.storeDescriptor ⟨index.toNat, h⟩ d := by
  rw [takeSetRegion, if_neg (by rw [free]; exact Bool.false_ne_true), dif_pos h, offered]
  rfl

/-- With valid no the fixed descriptor is stored (R83). -/
theorem takeSetRegion_empty (free : s.storing = false) (h : index.toNat < 16) :
    takeSetRegion index 0 first last cls width policy s = s.storeDescriptor ⟨index.toNat, h⟩ {} := by
  rw [takeSetRegion, if_neg (by rw [free]; exact Bool.false_ne_true), dif_pos h]
  rfl

theorem takeSetDefaults_badArgument {ageLimit : Word} (free : s.storing = false)
    (bad : 1 < cls.toNat ∨ 1 < policy.toNat) : takeSetDefaults cls ageLimit policy s = refusedWith .badArgument s := by
  rw [takeSetDefaults, if_neg (by rw [free]; exact Bool.false_ne_true)]
  rcases bad with h | h
  · rw [defaultClass_unlisted h]
  · rw [agePolicy_unlisted h]
    cases DefaultClass.ofCode cls.toNat <;> rfl

theorem takeSetDefaults_codes (free : s.storing = false) (x : Defaults) :
    takeSetDefaults x.cls.code x.ageLimit x.agePolicy.code s =
      { status := .ok, reply := s.editReply, after := s.storeTable { s.editedTable with defaults := x } } := by
  rw [takeSetDefaults, if_neg (by rw [free]; exact Bool.false_ne_true), ofCode_defaultClass, ofCode_agePolicy]

/-! ## The cells (R153 to R155) -/

variable {addr : BitVec 24} {mask compare : Word} {trigger : Byte}

theorem unwatchable_iff {a : WordAddr} :
    s.unwatchable a = true ↔ s.lookup a = .deviceArea ∨ s.lookup a = .journalArea := by
  unfold State.lookup State.unwatchable
  by_cases device : blockOf a < Config.firstFreeBlock
  · rw [if_pos device]
    simp [device]
  rw [if_neg device]
  by_cases area : s.inJournalArea (blockOf a) = true
  · rw [if_pos area]
    simp [area]
  rw [if_neg area]
  simp only [device, decide_false, Bool.false_or, area]
  cases s.regions.live.find (blockOf a) with
  | some k => simp
  | none => cases s.regions.live.defaults.cls <;> simp

theorem takeArmMonitor_badArgument (bad : 7 < index.toNat ∨ 1048575 < addr.toNat ∨ 1 < trigger.toNat) :
    takeArmMonitor index addr mask compare trigger s = refusedWith .badArgument s := by
  unfold takeArmMonitor
  split
  case isFalse => rfl
  next within =>
  split
  · rfl
  next low =>
  rw [trigger_unlisted (by omega)]

/-- Past the first checks of ARM_MONITOR: BUSY, a word no host may write, or the cell armed anew. -/
theorem takeArmMonitor_fits (h : index.toNat < 8) (low : addr.toNat ≤ 1048575) (listed : trigger.toNat ≤ 1) :
    takeArmMonitor index addr mask compare trigger s =
      if s.monitors[index.toNat].state = .arming then refusedWith .busy s
      else if s.unwatchable (addr.setWidth 20) = true then refusedWith .badArgument s
      else
        { status := .accepted, reply := []
          after :=
            { s with
              monitors :=
                s.monitors.set index.toNat
                  (s.monitors[index.toNat].arm (addr.setWidth 20) mask compare
                    (if trigger = 0 then .depart else .arrive)) } } := by
  have known : Trigger.ofCode trigger.toNat = some (if trigger = 0 then .depart else .arrive) := by
    by_cases zero : trigger = 0
    · rw [zero]; rfl
    · have one : trigger.toNat = 1 := by
        have some : trigger.toNat ≠ 0 := fun e => zero (BitVec.eq_of_toNat_eq e)
        omega
      rw [if_neg zero, one]; rfl
  rw [takeArmMonitor, dif_pos h, if_neg (by omega), known]

theorem disarm_eq (j : Fin 8) :
    s.disarm j =
      { s with
        monitors := s.monitors.set j { s.monitors[j] with state := .disarmed }
        port :=
          { s.port with
            op := s.port.op.map fun op =>
              if op.kind = .arming j true then { op with kind := .arming j false } else op } } := by
  have discard : ∀ u : State, u.discardArming j =
      { u with
        port.op := u.port.op.map fun op =>
          if op.kind = .arming j true then { op with kind := .arming j false } else op } := by
    intro u
    unfold State.discardArming
    cases op : u.port.op with
    | none => exact congrArg (fun o => ({ u with port.op := o } : State)) op
    | some o =>
      rw [Option.map_some]
      dsimp only
      split
      · rfl
      · exact congrArg (fun o => ({ u with port.op := o } : State)) op
  exact discard { s with monitors := s.monitors.set j { s.monitors[j] with state := .disarmed } }

variable {op : Operation} {j : Fin 8}

/-- A read that completes leaves the memory as it is. -/
theorem afterOp_read (read : op.writes = []) : s.afterOp op = { s with port.op := none } := by
  rw [State.afterOp, read]
  rfl

theorem exec_armingRead (busy : s.port.op = some op) (kind : op.kind = .arming j true) :
    exec .armingReadComplete s = .next ((s.afterOp op).armed j (readWord s.mem op.start)) := by
  simp only [exec, execArmingReadComplete, busy, kind]

theorem exec_discardedRead (busy : s.port.op = some op) (kind : op.kind = .arming j false) :
    exec .armingReadComplete s = .next (s.afterOp op) := by
  simp only [exec, execArmingReadComplete, busy, kind]

/-- A cell judges its shadow bit by bit under its mask (R152). -/
theorem judged_iff (x : Machine.Cell) :
    x.judged = .matching ∧ (∀ b, b < 16 → x.mask.getLsbD b = true → x.shadow.getLsbD b = x.compare.getLsbD b) ∨
      x.judged = .mismatch ∧
        ∃ b, b < 16 ∧ x.mask.getLsbD b = true ∧ x.shadow.getLsbD b ≠ x.compare.getLsbD b := by
  unfold Cell.judged
  by_cases same : x.shadow &&& x.mask = x.compare &&& x.mask
  · rw [if_pos same]
    refine .inl ⟨rfl, fun b _ selected => ?_⟩
    have bit := congrArg (fun v => BitVec.getLsbD v b) same
    simpa [selected] using bit
  · rw [if_neg same]
    refine .inr ⟨rfl, ?_⟩
    by_contra none
    push Not at none
    refine same (BitVec.eq_of_getLsbD_eq fun b lt => ?_)
    rw [BitVec.getLsbD_and, BitVec.getLsbD_and]
    cases selected : x.mask.getLsbD b with
    | false => rw [Bool.and_false, Bool.and_false]
    | true => rw [none b lt selected]

end Sys2Proof.Proofs

namespace Sys2Proof.Proofs
open Sys2Proof.Machine Sys2Proof.Laws

/-- Settles O41: check by check. -/
theorem setJournalStagesALocation : Obligations.SetJournalStagesALocation := by
  rintro base slots s args l rfl rfl q ready
  rw [exec_passed (i := .setJournal base slots) (c := .setJournal) rfl rfl q ready rfl, ownerRule]
  refine ⟨fun storing => ?_, fun saving format => ⟨fun bad => ?_, fun some fits last => ⟨fun conflict => ?_, fun high
    live staged cells => ?_⟩⟩⟩
  · rw [takeSetJournal, if_pos (storing_eq_true storing), settle_refused]
    rfl
  · rw [takeSetJournal_badArgument (storing_eq_false saving format) bad, settle_refused]
    rfl
  · rw [takeSetJournal_fits (storing_eq_false saving format) some fits last, if_pos, settle_refused]
    · rfl
    · rw [overlapsArea_table_iff, any_some_iff, watchedIn_iff]
      simpa only [overlapsArea_table_iff] using conflict
  · rw [takeSetJournal_fits (storing_eq_false saving format) some fits last, if_neg]
    · rfl
    · rw [overlapsArea_table_iff, any_some_iff, watchedIn_iff]
      rintro (low | ⟨k, overlap⟩ | ⟨t, is, overlap⟩ | ⟨k, armed, covers⟩)
      · omega
      · exact Bool.false_ne_true ((live k).symm.trans overlap)
      · obtain ⟨k, overlap⟩ := overlapsArea_table_iff.1 overlap
        exact Bool.false_ne_true ((staged t is k).symm.trans overlap)
      · exact Bool.false_ne_true (((cells k).resolve_left armed).symm.trans covers)

/-- Settles O44: check by check, and the table the edit enters by the epoch's state. -/
theorem setRegionEditsOneDescriptor : Obligations.SetRegionEditsOneDescriptor := by
  rintro index valid first last cls width policy s args edited rfl q ready idleTable otherTable
  have table : edited = s.editedTable := by
    by_cases idle : s.epoch.state = .idle
    · rw [idleTable idle, editedTable_idle idle]
    · rw [otherTable idle, editedTable_other idle]
  rw [exec_passed (i := .setRegion index valid first last cls width policy) (c := .setRegion) rfl rfl q ready rfl, ownerRule]
  refine ⟨fun storing => ?_, fun saving format => ⟨fun bad => ?_, fun h d offered => ⟨fun valid conflict => ?_, fun apart => ?_⟩⟩⟩
  · rw [takeSetRegion, if_pos (storing_eq_true storing), settle_refused]
    rfl
  · rw [takeSetRegion_badArgument (storing_eq_false saving format) bad, settle_refused]
    rfl
  · have free := storing_eq_false saving format
    rcases offered with ⟨-, rfl⟩ | ⟨rfl, order, _, rfl, rfl, rfl, rfl, rfl⟩
    · cases valid
    · rw [takeSetRegion_valid free h (offeredDescriptor_codes order valid), if_pos, settle_refused]
      · rfl
      · rw [conflicts_iff, ← table]
        exact conflict
  · have free := storing_eq_false saving format
    have stored : takeSetRegion index valid first last cls width policy s = s.storeDescriptor ⟨index.toNat, h⟩ d := by
      rcases offered with ⟨rfl, rfl⟩ | ⟨rfl, order, valid, rfl, rfl, rfl, rfl, rfl⟩
      · exact takeSetRegion_empty free h
      · rw [takeSetRegion_valid free h (offeredDescriptor_codes order valid), if_neg]
        rw [conflicts_iff, ← table]
        obtain ⟨high, live, staged, others⟩ := apart valid
        rintro (low | overlap | ⟨l, is, overlap⟩ | ⟨j, ne, overlap⟩)
        · omega
        · exact Bool.false_ne_true (live.symm.trans overlap)
        · exact Bool.false_ne_true ((staged l is).symm.trans overlap)
        · exact Bool.false_ne_true ((others j ne).symm.trans overlap)
    rw [stored, State.storeDescriptor, settle_eq]
    refine ⟨fun idle => ?_, fun other => ?_⟩
    · rw [storeTable_idle idle, editedTable_idle idle, editReply_idle idle]
      rfl
    · rw [storeTable_other other, ← table, editReply_other other]
      rfl

/-- Settles O45: check by check, and the table the edit enters by the epoch's state. -/
theorem setDefaultsReplacesTheDefaults : Obligations.SetDefaultsReplacesTheDefaults := by
  rintro cls ageLimit policy s args d rfl q ready
  rw [exec_passed (i := .setDefaults cls ageLimit policy) (c := .setDefaults) rfl rfl q ready rfl, ownerRule]
  refine ⟨fun storing => ?_, fun saving format => ⟨fun bad => ?_, ?_⟩⟩
  · rw [takeSetDefaults, if_pos (storing_eq_true storing), settle_refused]
    rfl
  · rw [takeSetDefaults_badArgument (storing_eq_false saving format) bad, settle_refused]
    rfl
  · rintro rfl rfl rfl
    rw [takeSetDefaults_codes (storing_eq_false saving format), settle_eq]
    refine ⟨fun idle => ?_, fun other => ?_⟩
    · rw [storeTable_idle idle, editedTable_idle idle, editReply_idle idle]
      rfl
    · rw [storeTable_other other, editedTable_other other, editReply_other other]
      rfl

/-- Settles O35: the checks of ARM_MONITOR in their order, DISARM_MONITOR's one cell, and the arming read by whether it is
still wanted. -/
theorem monitorsArmAndDisarm : Obligations.MonitorsArmAndDisarm := by
  refine ⟨?arm, fun index s q ready => ?disarm, fun s op i w busy read word => ⟨fun discarded => ?discarded, fun wanted => ?armed⟩⟩
  case arm =>
    rintro index addr mask compare trigger s args rfl q ready free
    rw [exec_ready (i := .armMonitor index addr mask compare trigger) (c := .armMonitor) rfl rfl q ready free, ownerRule]
    refine ⟨fun bad => ?_, fun h low listed => ?_⟩
    · rw [takeArmMonitor_badArgument bad]
      rfl
    rw [takeArmMonitor_fits h low listed]
    refine ⟨fun arming => ?_, fun still place => ?_, fun still device journal => ?_⟩
    · rw [if_pos arming]; rfl
    · rw [if_neg still, if_pos (unwatchable_iff.2 place)]; rfl
    · rw [if_neg still, if_neg (mt unwatchable_iff.1 (not_or.2 ⟨device, journal⟩))]; rfl
  case disarm =>
    rw [exec_passed (i := .disarmMonitor index) (c := .disarmMonitor) rfl rfl q ready rfl, ownerRule, takeDisarmMonitor]
    refine ⟨fun above => ?_, fun h => ⟨(s.disarm ⟨index.toNat, h⟩).port, ?_, ?_, ?_⟩⟩
    · rw [dif_neg (by omega)]; rfl
    · rw [dif_pos h, disarm_eq]; rfl
    · rw [disarm_eq]
    · rw [disarm_eq]
  case discarded =>
    rw [exec_discardedRead busy discarded, afterOp_read read]
  case armed =>
    refine ⟨Cell.judged { s.monitors[i] with shadow := w }, judged_iff { s.monitors[i] with shadow := w }, ?_⟩
    rw [exec_armingRead busy wanted, afterOp_read read, ← word]
    rfl

end Sys2Proof.Proofs
end

section
-- One declaration at a time: each thread that waits for another reserves memory of the check.
set_option Elab.async false
/-! The host's requests: the lookup, write acceptance step by step, the classification of a read, and the completions that
answer (chapter 6). -/

namespace Sys2Proof.Proofs
open Sys2Proof.Machine Sys2Proof.Laws

variable {s t : State} {r : HostRequest} {region index : RegionIndex} {cls : RegionClass} {width : Width}
  {policy : OutsidePolicy} {addr : WordAddr} {lanes : Lanes} {data : Word}

/-! ## The lookup (R79) -/

theorem lookup_deviceArea (low : addr.toNat < 144) : s.lookup addr = .deviceArea := by
  have below : blockOf addr < Config.firstFreeBlock := Nat.div_lt_of_lt_mul low
  rw [State.lookup, if_pos below]

theorem lookup_above (high : 144 ≤ addr.toNat) : ¬blockOf addr < Config.firstFreeBlock := by
  have block : 9 ≤ addr.toNat / 16 := by omega
  exact not_lt.2 block

theorem lookup_journalArea (high : 144 ≤ addr.toNat) (area : s.inJournalArea (addr.toNat / 16) = true) :
    s.lookup addr = .journalArea := by
  have here : s.inJournalArea (blockOf addr) = true := area
  rw [State.lookup, if_neg (lookup_above high), if_pos here]

/-- Outside the device area and the journal areas the table and the defaults answer. -/
theorem lookup_outside (high : 144 ≤ addr.toNat) (outside : s.inJournalArea (addr.toNat / 16) = false) :
    s.lookup addr =
      match s.regions.live.find (addr.toNat / 16) with
      | some i =>
        .region (.region i) s.regions.live.descs[i].cls s.regions.live.descs[i].width s.regions.live.descs[i].policy
      | none =>
        match s.regions.live.defaults.cls with
        | .openDefault => .region .byDefault .openRegion .any .pass
        | .refuse => .unmapped := by
  have away : ¬s.inJournalArea (blockOf addr) = true := Bool.eq_false_iff.1 outside
  rw [State.lookup, if_neg (lookup_above high), if_neg away]
  rfl

theorem overlaps_of_covers {d e : Descriptor} {block : Nat} (first : d.covers block = true) (second : e.covers block = true) :
    d.overlaps e = true := by
  simp only [Descriptor.covers, Bool.and_eq_true, decide_eq_true_eq] at first second
  obtain ⟨⟨valid, low⟩, high⟩ := first
  obtain ⟨⟨valid', low'⟩, high'⟩ := second
  simp only [Descriptor.overlaps, Bool.and_eq_true, decide_eq_true_eq]
  exact ⟨⟨⟨valid, valid'⟩, low.trans high'⟩, low'.trans high⟩

/-- Under the law of R82 the descriptor that covers a block is the one the search finds. -/
theorem find_of_covers {x : RegionTable} {l : Location} {i : Fin 16} {block : Nat} (law : x.lawful l = true)
    (covers : x.descs[i].covers block = true) : x.find block = some i := by
  have found : (x.find block).isSome := List.find?_isSome.2 ⟨i, List.mem_finRange i, covers⟩
  obtain ⟨j, is⟩ := Option.isSome_iff_exists.1 found
  have other : x.descs[j].covers block = true := 
    List.find?_some (l := List.finRange 16) (p := fun k : Fin 16 => x.descs[k].covers block) is
  have valid : x.descs[i].valid = true := by
    simp only [Descriptor.covers, Bool.and_eq_true] at covers
    exact covers.1.1
  have same : i = j := by
    by_contra ne
    obtain ⟨-, -, -, apart⟩ := lawful_iff.1 law i valid
    exact Bool.false_ne_true ((apart j ne).symm.trans (overlaps_of_covers covers other))
  rw [is, same]

theorem find_none {x : RegionTable} {block : Nat} (none : ∀ i : Fin 16, x.descs[i].covers block = false) :
    x.find block = Option.none :=
  List.find?_eq_none.2 fun i _ => Bool.eq_false_iff.1 (none i)

/-! ## A write presented -/

theorem exec_hostWrite (up : s.running = true) (free : s.lines.presented = none) :
    exec (.hostWrite addr lanes data) s =
      .next ((s.presenting { kind := .write, addr := addr, lanes := lanes, data := data }).acceptWrite
        { kind := .write, addr := addr, lanes := lanes, data := data }) := by
  have shown : s.present { kind := .write, addr := addr, lanes := lanes, data := data } =
      State.classify { s with
        lines :=
          { s.lines with
            presented := some { kind := .write, addr := addr, lanes := lanes, data := data }
            ready := false, error := false, hostData := 0 } } := by
    rw [State.present, free]
    exact if_pos up
  exact congrArg Host.Outcome.next shown

theorem exec_hostRead (up : s.running = true) (free : s.lines.presented = none) :
    exec (.hostRead addr lanes) s =
      .next ((s.presenting { kind := .read, addr := addr, lanes := lanes, data := 0 }).acceptRead
        { kind := .read, addr := addr, lanes := lanes, data := 0 }) := by
  have shown : s.present { kind := .read, addr := addr, lanes := lanes, data := 0 } =
      State.classify { s with
        lines :=
          { s.lines with
            presented := some { kind := .read, addr := addr, lanes := lanes, data := 0 }
            ready := false, error := false, hostData := 0 } } := by
    rw [State.present, free]
    exact if_pos up
  exact congrArg Host.Outcome.next shown

/-! ## Write acceptance, step by step (R103 to R109) -/

theorem acceptWrite_starting (d : s.control.device = .starting) : s.acceptWrite r = s.holdHost .starting := by
  rw [State.acceptWrite, if_pos d]

theorem acceptWrite_power (d : s.control.device ≠ .starting) (h : s.control.hold = true) :
    s.acceptWrite r = s.holdHost .power := by
  rw [State.acceptWrite, if_neg d, if_pos h]

theorem draining_of_job {job : FormatJob} (f : s.journal.format = some job) (step : job.step = .drain) :
    s.draining = true := by
  simp [State.draining, f, step]

theorem acceptWrite_draining (d : s.control.device ≠ .starting) (h : s.control.hold = false) (drains : s.draining = true) :
    s.acceptWrite r = s.holdHost .formatDrain := by
  rw [State.acceptWrite, if_neg d, if_neg (Bool.eq_false_iff.1 h), if_pos drains]

/-- Past the first step the lookup answers. -/
theorem acceptWrite_looked (d : s.control.device ≠ .starting) (h : s.control.hold = false) (still : s.draining = false) :
    s.acceptWrite r =
      match s.lookup r.addr with
      | .deviceArea => s.refuseHost r .deviceArea
      | .journalArea => s.refuseHost r .journalArea
      | .unmapped => s.refuseHost r .unmapped
      | .region index cls width policy =>
        if cls = .guarded then s.refuseHost r .guarded
        else if width = .wordOnly ∧ singleLane r.lanes = true then s.refuseHost r .width
        else if Config.queueCapacity ≤ s.host.queue.length then s.holdHost .queueFull
        else if cls = .journaled ∧ s.control.device = .recovering then s.holdHost .recovery
        else if cls = .journaled ∧ s.epoch.state.ending = true then s.holdHost .epoch
        else s.fifthStep r index cls policy :=
  (if_neg d).trans ((if_neg (Bool.eq_false_iff.1 h)).trans (if_neg (Bool.eq_false_iff.1 still)))

theorem singleLane_iff : singleLane lanes = true ↔ lanes = .low ∨ lanes = .high := by
  simp [singleLane]

/-- A write that has passed the first three steps of its acceptance, of a request presented or about to be. -/
structure Looked (s : State) (r : HostRequest) (index : RegionIndex) (cls : RegionClass) (width : Width)
    (policy : OutsidePolicy) : Prop where
  started : s.control.device ≠ .starting
  free : s.control.hold = false
  still : s.draining = false
  place : s.lookup r.addr = .region index cls width policy
  unguarded : cls ≠ .guarded
  wide : ¬(width = .wordOnly ∧ (r.lanes = .low ∨ r.lanes = .high))

/-- Then it is held by the fourth step, or the fifth decides. -/
theorem Looked.acceptWrite_eq (l : Looked s r index cls width policy) :
    s.acceptWrite r =
      if 8 ≤ s.host.queue.length then s.holdHost .queueFull
      else if cls = .journaled ∧ s.control.device = .recovering then s.holdHost .recovery
      else if cls = .journaled ∧ s.epoch.state.ending = true then s.holdHost .epoch
      else s.fifthStep r index cls policy := by
  have admitted : ¬(width = .wordOnly ∧ singleLane r.lanes = true) := by
    rw [singleLane_iff]
    exact l.wide
  rw [acceptWrite_looked l.started l.free l.still, l.place]
  dsimp only
  rw [if_neg l.unguarded, if_neg admitted]
  rfl

/-- Room in the queue, READY and an epoch that is not ending take a journaled write to the fifth step (R105). -/
theorem Looked.acceptWrite_journaled (l : Looked s r index .journaled width policy) (room : s.host.queue.length < 8)
    (ready : s.control.device = .ready) (going : s.epoch.state.ending = false) :
    s.acceptWrite r = s.fifthStep r index .journaled policy := by
  rw [l.acceptWrite_eq, if_neg (not_le.2 room), if_neg (by rw [ready]; simp), if_neg (by rw [going]; simp)]

theorem Looked.acceptWrite_open (l : Looked s r index .openRegion width policy) (room : s.host.queue.length < 8) :
    s.acceptWrite r = s.post r index none none := by
  rw [l.acceptWrite_eq, if_neg (not_le.2 room), if_neg (by simp), if_neg (by simp)]
  rfl

/-! ## The fifth step for a journaled region -/

theorem fifthStep_pass (e : s.epoch.state = .idle) : s.fifthStep r index .journaled .pass = s.post r index none none := by
  simp only [State.fifthStep, e]

theorem fifthStep_refuse (e : s.epoch.state = .idle) :
    s.fifthStep r index .journaled .refuse = s.refuseHost r .outsideEpoch := by
  simp only [State.fifthStep, e]

theorem fifthStep_opened (e : s.epoch.state = .opened) :
    s.fifthStep r index .journaled policy = s.journaledWrite r index := by
  simp only [State.fifthStep, e]

theorem fifthStep_doomed (e : s.epoch.state = .doomed) :
    s.fifthStep r index .journaled policy = s.refuseHost r .doomed := by
  simp only [State.fifthStep, e]

theorem post_neither (none : r.lanes = .neither) {tag : Option Serial} {append : Option Append} :
    s.post r index tag append = s.completeHost 0 := if_pos none

theorem post_some (some : r.lanes ≠ .neither) {tag : Option Serial} {append : Option Append} :
    s.post r index tag append =
      { s.completeHost 0 with host.queue := s.host.queue ++ [queueEntryOf r index tag append] } := if_neg some

/-! ## A journaled write in OPEN (R108) -/

theorem journaledWrite_neither (none : r.lanes = .neither) : s.journaledWrite r index = s.completeHost 0 := if_pos none

theorem covered_iff {block : Nat} : s.covered block = true ↔ ∃ e ∈ s.loggedSet, e.block = block := by
  simp [State.covered]

theorem journaledWrite_hit (some : r.lanes ≠ .neither) (hit : s.covered (blockOf r.addr) = true) :
    s.journaledWrite r index = s.post r index (Option.some s.epoch.serial) none := by
  rw [State.journaledWrite, if_neg some, if_pos hit]

theorem journaledWrite_granted (some : r.lanes ≠ .neither) (miss : s.covered (blockOf r.addr) = false)
    (opened : s.epoch.state = .opened) (room : s.epoch.reserved < s.slots) :
    s.journaledWrite r index =
      (s.reserve (blockOf r.addr) s.epoch.reserved).post r index (Option.some s.epoch.serial)
        (Option.some { sequence := s.epoch.reserved, spill := decide (64 ≤ s.loggedSet.length) }) := by
  have claim : s.claim = .granted s.epoch.reserved := by
    rw [State.claim, if_neg (not_not.2 opened), if_pos room]
  rw [State.journaledWrite, if_neg some, if_neg (Bool.eq_false_iff.1 miss), claim]
  rfl

theorem journaledWrite_exhausted (some : r.lanes ≠ .neither) (miss : s.covered (blockOf r.addr) = false)
    (opened : s.epoch.state = .opened) (full : s.slots ≤ s.epoch.reserved) :
    s.journaledWrite r index = s.doom.refuseHost r .journalFull := by
  have claim : s.claim = .exhausted := by
    rw [State.claim, if_neg (not_not.2 opened), if_neg (not_lt.2 full)]
  rw [State.journaledWrite, if_neg some, if_neg (Bool.eq_false_iff.1 miss), claim]

theorem reserve_entered {block sequence : Nat} (room : s.loggedSet.length < 64) :
    s.reserve block sequence =
      { s with
        epoch.reserved := s.epoch.reserved + 1
        loggedSet := s.loggedSet ++ [{ block := block, state := .pending, sequence := sequence }] } := if_pos room

theorem reserve_spilled {block sequence : Nat} (full : 64 ≤ s.loggedSet.length) :
    s.reserve block sequence =
      { s with epoch := { s.epoch with reserved := s.epoch.reserved + 1, spills := s.epoch.spills + 1 } } :=
  if_neg (not_lt.2 full)

/-! ## The statements' premises -/

theorem looked_of_admitsWrite (a : s.admitsWrite addr lanes index cls width policy) :
    Looked (s.presenting { kind := .write, addr := addr, lanes := lanes, data := data })
      { kind := .write, addr := addr, lanes := lanes, data := data } index cls width policy := by
  obtain ⟨-, -, started, free, still, place, unguarded, wide⟩ := a
  exact ⟨started, free, still, place, unguarded, wide⟩

theorem exec_admitted (a : s.admitsWrite addr lanes index cls width policy) :
    exec (.hostWrite addr lanes data) s =
      .next ((s.presenting { kind := .write, addr := addr, lanes := lanes, data := data }).acceptWrite
        { kind := .write, addr := addr, lanes := lanes, data := data }) := by
  obtain ⟨up, none, -⟩ := a
  exact exec_hostWrite up none

end Sys2Proof.Proofs

namespace Sys2Proof.Proofs
open Sys2Proof.Machine Sys2Proof.Laws

/-- Settles O20: the cases of the lookup in their order; under the law of R82 the search finds the one descriptor. -/
theorem lookupAnswersInOrder : Obligations.LookupAnswersInOrder := by
  refine fun s addr => ⟨lookup_deviceArea, fun high live => ?live, fun high apart old => ⟨fun i law covers => ?one, fun none => ?default⟩,
    fun job format high covers => ?format⟩
  case live => exact lookup_journalArea high (by simp [State.inJournalArea, live])
  case format => exact lookup_journalArea high (by rcases covers with c | c <;> simp [State.inJournalArea, format, c])
  all_goals
    have outside : s.inJournalArea (addr.toNat / 16) = false := by
      unfold State.inJournalArea
      rw [apart, Bool.false_or]
      cases format : s.journal.format with
      | none => rfl
      | some job =>
        obtain ⟨before, after⟩ := old job format
        dsimp only
        rw [before, after]
        rfl
    rw [lookup_outside high outside]
  case one => rw [find_of_covers law covers]
  case default =>
    rw [find_none none]
    exact ⟨fun c => by rw [c], fun c => by rw [c]⟩

/-- Settles O21: the holds and refusals step by step; what is refused answers with its own reason. -/
theorem writesHeldOrRefusedWithTheirReason : Obligations.WritesHeldOrRefusedWithTheirReason := by
  refine ⟨fun s addr lanes data t up free shown => ?held, fun s addr lanes data => ⟨?refused, ?fifth⟩⟩
  case held =>
    subst shown
    rw [exec_hostWrite up free]
    refine ⟨fun d => ?_, fun d h => ?_, fun job d h f drain => ?_, fun index cls width policy a => ?_⟩
    · rw [acceptWrite_starting (s := s.presenting _) d]; rfl
    · rw [acceptWrite_power (s := s.presenting _) d h]; rfl
    · rw [acceptWrite_draining (s := s.presenting _) d h (draining_of_job (s := s) f drain)]; rfl
    · rw [(looked_of_admitsWrite a).acceptWrite_eq]
      refine ⟨fun full => ?_, fun room class_ recovering => ?_, fun room class_ ready ends => ?_⟩
      · rw [if_pos (show 8 ≤ (s.presenting _).host.queue.length from full)]; rfl
      · rw [if_neg (show ¬8 ≤ (s.presenting _).host.queue.length from not_le.2 room),
          if_pos (show cls = .journaled ∧ (s.presenting _).control.device = .recovering from ⟨class_, recovering⟩)]
        rfl
      · have other : ¬(cls = .journaled ∧ (s.presenting
            { kind := .write, addr := addr, lanes := lanes, data := data }).control.device = .recovering) := by
          rintro ⟨-, recovering⟩
          have both := ready.symm.trans recovering
          cases both
        have ending : cls = .journaled ∧ (s.presenting
            { kind := .write, addr := addr, lanes := lanes, data := data }).epoch.state.ending = true :=
          ⟨class_, by rcases ends with e | e <;> simp [EpochState.ending, State.presenting, e]⟩
        rw [if_neg (show ¬8 ≤ (s.presenting _).host.queue.length from not_le.2 room), if_neg other, if_pos ending]
        rfl
  case refused =>
    intro up free d h still
    rw [exec_hostWrite up free, acceptWrite_looked (s := s.presenting _) d h still]
    have place : ∀ r : HostRequest, (s.presenting r).lookup addr = s.lookup addr := fun r => rfl
    dsimp only
    rw [place]
    refine ⟨fun p => ?_, fun p => ?_, fun p => ?_, fun index cls width policy p => ⟨fun guarded => ?_, fun open_ narrow lane => ?_⟩⟩
    · rw [p]; rfl
    · rw [p]; rfl
    · rw [p]; rfl
    · rw [p]
      dsimp only
      rw [if_pos guarded]
      rfl
    · rw [p]
      dsimp only
      rw [if_neg open_, if_pos ⟨narrow, singleLane_iff.2 lane⟩]
      rfl
  case fifth =>
    intro index width policy a room ready
    rw [exec_admitted a]
    refine ⟨fun idle refuse => ?_, fun doomed => ?_⟩
    · rw [(looked_of_admitsWrite a).acceptWrite_journaled room ready (by simp [State.presenting, idle, EpochState.ending]),
        refuse, fifthStep_refuse (s := s.presenting _) idle]
      have serial : s.refusalSerial = 0 := if_pos idle
      rw [← serial]
      rfl
    · rw [(looked_of_admitsWrite a).acceptWrite_journaled room ready
        (by simp [State.presenting, doomed, EpochState.ending]), fifthStep_doomed (s := s.presenting _) doomed]
      have serial : s.refusalSerial = s.epoch.serial := if_neg (by rw [doomed]; simp)
      rw [← serial]
      rfl

/-- Settles O22: the fifth step posts the write. -/
theorem plainWritesArePosted : Obligations.PlainWritesArePosted := by
  intro s addr lanes data index cls width policy a room plain
  have posts : exec (.hostWrite addr lanes data) s =
      .next ((s.presenting { kind := .write, addr := addr, lanes := lanes, data := data }).post
        { kind := .write, addr := addr, lanes := lanes, data := data } index none none) := by
    rw [exec_admitted a]
    rcases plain with rfl | ⟨rfl, ready, idle, rfl⟩
    · rw [(looked_of_admitsWrite a).acceptWrite_open room]
    · rw [(looked_of_admitsWrite a).acceptWrite_journaled room ready (by simp [State.presenting, idle, EpochState.ending]),
        fifthStep_pass (s := s.presenting _) idle]
  rw [posts]
  refine ⟨fun some => ?_, fun none => ?_⟩
  · rw [post_some (show HostRequest.lanes _ ≠ .neither from some)]; rfl
  · rw [post_neither (show HostRequest.lanes _ = .neither from none)]; rfl

/-- Settles O23: a hit, a claim with room in the set or a spill, and the claim refused. -/
theorem journaledWritesAreCoveredOrDoom : Obligations.JournaledWritesAreCoveredOrDoom := by
  have writes : ∀ (s : State) (addr : WordAddr) (lanes : Lanes) (data : Word) (index : RegionIndex) (width : Width)
      (policy : OutsidePolicy), s.admitsWrite addr lanes index .journaled width policy → s.host.queue.length < 8 →
      s.control.device = .ready → s.epoch.state = .opened →
      exec (.hostWrite addr lanes data) s =
        .next ((s.presenting { kind := .write, addr := addr, lanes := lanes, data := data }).journaledWrite
          { kind := .write, addr := addr, lanes := lanes, data := data } index) := by
    intro s addr lanes data index width policy a room ready opened
    rw [exec_admitted a, (looked_of_admitsWrite a).acceptWrite_journaled room ready
      (by simp [State.presenting, opened, EpochState.ending]), fifthStep_opened (s := s.presenting _) opened]
  have miss : ∀ (s : State) (addr : WordAddr) (r : HostRequest), (∀ e ∈ s.loggedSet, e.block ≠ addr.toNat / 16) →
      (s.presenting r).covered (blockOf addr) = false := fun s addr r none => Bool.eq_false_iff.2 fun hit =>
    have ⟨e, mem, block⟩ := covered_iff.1 hit
    none e mem block
  refine ⟨fun s addr lanes data index width policy a room ready opened => ?_,
    fun s addr lanes data index width policy a room ready opened some none full => ?_⟩
  · rw [writes s addr lanes data index width policy a room ready opened]
    refine ⟨fun none => ?_, fun some hit => ?_, fun some none slots set => ?_, fun some none slots set => ?_⟩
    · rw [journaledWrite_neither (show HostRequest.lanes _ = .neither from none)]; rfl
    · rw [journaledWrite_hit (s := s.presenting _) (r := { kind := .write, addr := addr, lanes := lanes, data := data })
        some (covered_iff.2 hit), post_some (show HostRequest.lanes _ ≠ .neither from some)]
      rfl
    · rw [journaledWrite_granted (s := s.presenting _) (show HostRequest.lanes _ ≠ .neither from some)
        (miss s addr _ none) opened slots, reserve_entered (s := s.presenting _) set,
        post_some (show HostRequest.lanes _ ≠ .neither from some)]
      have within : decide (64 ≤ s.loggedSet.length) = false := decide_eq_false (not_le.2 set)
      rw [← within]
      rfl
    · rw [journaledWrite_granted (s := s.presenting _) (show HostRequest.lanes _ ≠ .neither from some)
        (miss s addr _ none) opened slots, reserve_spilled (s := s.presenting _) set,
        post_some (show HostRequest.lanes _ ≠ .neither from some)]
      have beyond : decide (64 ≤ s.loggedSet.length) = true := decide_eq_true set
      rw [← beyond]
      rfl
  · rw [writes s addr lanes data index width policy a room ready opened,
      journaledWrite_exhausted (s := s.presenting _) (show HostRequest.lanes _ ≠ .neither from some)
        (miss s addr _ none) opened full.ge]
    rfl

/-- Settles O24: a read is classified by the first step that applies, and completes with the word the memory holds. -/
theorem readsAreClassifiedAndAnswered : Obligations.ReadsAreClassifiedAndAnswered := by
  refine ⟨fun s addr lanes t up free shown => ?classified, fun s op busy kind read => ?answered⟩
  case classified =>
    subst shown
    rw [exec_hostRead up free, State.acceptRead]
    have place : ∀ r : HostRequest, (s.presenting r).lookup addr = s.lookup addr := fun r => rfl
    have queued : ∀ r : HostRequest, (s.presenting r).blockQueued (blockOf addr) = true ↔
        ∃ e ∈ s.host.queue, e.addr.toNat / 16 = addr.toNat / 16 := fun r => by
      simp only [State.blockQueued, List.any_eq_true, beq_iff_eq]
      rfl
    simp only [place, queued]
    cases s.lookup addr <;> rfl
  case answered =>
    simp only [exec, execHostReadComplete, busy, kind, if_true, afterOp_read read]
    rfl

end Sys2Proof.Proofs
end

section
-- One declaration at a time: each thread that waits for another reserves memory of the check.
set_option Elab.async false
/-! The Memory Port: what the free port grants, the order of the device side, the stages of the head entry, and the extents
and words of the maintenance operations (chapter 7). -/

namespace Sys2Proof.Proofs
open Sys2Proof.Machine Sys2Proof.Laws

variable {s t : State} {k : OpKind} {head : QueueEntry} {rest : List QueueEntry}

/-! ## The grant -/

theorem exec_grant (up : s.running = true) (free : s.port.op = none) (next : s.nextGrant = some k) :
    exec .arbiterGrant s = .next (s.grant k) := arbiterGrant_eq up free next

theorem exec_noGrant (up : s.running = true) (free : s.port.op = none) (next : s.nextGrant = none) :
    exec .arbiterGrant s = .next s := by
  simp only [exec, execArbiterGrant, up, free, and_self, if_true, next]

theorem hrWaiting_none (h : s.host.phase ≠ .grantWait) : s.hrWaiting = none := if_neg h

theorem hrWaiting_some (h : s.host.phase = .grantWait) : s.hrWaiting = some .hostRead := if_pos h

/-- The device side has its turn, with the hold flag clear: no host read waits, or the host had the last turn (R125). -/
theorem nextGrant_device (free : s.control.hold = false) (turn : s.host.phase ≠ .grantWait ∨ s.port.alternation = .host)
    (asks : s.deviceWaiting = some k) : s.nextGrant = some k := by
  rw [State.nextGrant, if_neg (Bool.eq_false_iff.1 free)]
  rcases turn with phase | host
  · rw [hrWaiting_none phase, asks]
    cases s.port.alternation <;> rfl
  · rw [host, asks]
    rfl

theorem nextGrant_host (free : s.control.hold = false) (waits : s.host.phase = .grantWait)
    (turn : s.port.alternation = .device ∨ s.deviceWaiting = none) : s.nextGrant = some .hostRead := by
  rw [State.nextGrant, if_neg (Bool.eq_false_iff.1 free), hrWaiting_some waits]
  rcases turn with device | none
  · rw [device]
    rfl
  · rw [none]
    cases s.port.alternation <;> rfl

theorem nextGrant_idle (free : s.control.hold = false) (phase : s.host.phase ≠ .grantWait)
    (idle : s.deviceWaiting = none) : s.nextGrant = none := by
  rw [State.nextGrant, if_neg (Bool.eq_false_iff.1 free), hrWaiting_none phase, idle]
  cases s.port.alternation <;> rfl

theorem nextGrant_held (hold : s.control.hold = true) : s.nextGrant = s.wpWaiting.or s.exemptWaiting := by
  rw [State.nextGrant, if_pos hold]

/-! ## The order of the device side (R126) -/

theorem deviceWaiting_wp (asks : s.wpWaiting = some k) : s.deviceWaiting = some k := by
  rw [State.deviceWaiting, asks]
  rfl

theorem deviceWaiting_save (none : s.wpWaiting = none) (saving : s.regions.saving = true) :
    s.deviceWaiting = some (.saveConfig (copyNotInForce s.regions.inForce)) := by
  rw [State.deviceWaiting, none, State.saveWaiting, if_pos saving]
  rfl

theorem deviceWaiting_journal (none : s.wpWaiting = none) (spare : s.regions.saving = false)
    (asks : s.journalWaiting = some k) : s.deviceWaiting = some k := by
  rw [State.deviceWaiting, none, State.saveWaiting, if_neg (Bool.eq_false_iff.1 spare), asks]
  rfl

theorem deviceWaiting_ma (none : s.wpWaiting = none) (spare : s.regions.saving = false)
    (idle : s.journalWaiting = .none) : s.deviceWaiting = s.maWaiting := by
  rw [State.deviceWaiting, none, State.saveWaiting, if_neg (Bool.eq_false_iff.1 spare), idle]
  rfl

/-- Among arming reads the cell with the lowest index goes first (R126). -/
theorem maWaiting_lowest {i : Fin 8} (arming : s.monitors[i].state = .arming)
    (lowest : ∀ j : Fin 8, j < i → s.monitors[j].state ≠ .arming) : s.maWaiting = some (.arming i true) := by
  have found : (List.finRange 8).find? (fun j => s.monitors[j].state == .arming) = some i := by
    refine List.find?_eq_some_iff_getElem.2 ⟨beq_iff_eq.2 arming, i.val, by simp, by simp, fun j below => ?_⟩
    have before : (⟨j, below.trans i.isLt⟩ : Fin 8) < i := below
    simpa using lowest ⟨j, below.trans i.isLt⟩ before
  rw [State.maWaiting, found]
  rfl

theorem maWaiting_none (none : ∀ i : Fin 8, s.monitors[i].state ≠ .arming) : s.maWaiting = Option.none := by
  have found : (List.finRange 8).find? (fun j => s.monitors[j].state == .arming) = Option.none :=
    List.find?_eq_none.2 fun i _ => by simpa using none i
  rw [State.maWaiting, found]
  rfl

/-! ## The write path (R111) -/

theorem wpWaiting_empty (empty : s.host.queue = []) : s.wpWaiting = none := by rw [State.wpWaiting, empty]

theorem wpWaiting_appendRead (queue : s.host.queue = head :: rest) (progress : head.progress = .appendWaiting) :
    s.wpWaiting = some .appendRead := by
  simp only [State.wpWaiting, queue, progress]

theorem wpWaiting_appendWrite {preimage : List Word} (queue : s.host.queue = head :: rest)
    (progress : head.progress = .appendInFlight) (kept : s.journal.preimage = some preimage) :
    s.wpWaiting = some .appendWrite := by
  simp only [State.wpWaiting, queue, progress, kept, Option.isSome_some, if_true]

theorem wpWaiting_queueWrite (queue : s.host.queue = head :: rest) (progress : head.progress = .writeWaiting) :
    s.wpWaiting = some .queueWrite := by
  simp only [State.wpWaiting, queue, progress]

theorem wpWaiting_cases (asks : s.wpWaiting = some k) : k = .appendRead ∨ k = .appendWrite ∨ k = .queueWrite := by
  unfold State.wpWaiting at asks
  split at asks; · cases asks
  split at asks
  · cases asks; exact .inl rfl
  · split at asks <;> cases asks
    exact .inr (.inl rfl)
  · cases asks; exact .inr (.inr rfl)
  · cases asks

/-- WP is granted whatever the hold flag, where the host has no turn before it (R114). -/
theorem nextGrant_wp (turn : s.control.hold = true ∨ s.host.phase ≠ .grantWait ∨ s.port.alternation = .host)
    (asks : s.wpWaiting = some k) : s.nextGrant = some k := by
  cases hold : s.control.hold
  · exact nextGrant_device hold (turn.resolve_left (by rw [hold]; exact Bool.false_ne_true)) (deviceWaiting_wp asks)
  · rw [nextGrant_held hold, asks]
    rfl

/-! ## The journal's, the run's and start-up's operation (R124) -/

theorem journalWaiting_read (phase : s.rollback.phase = .read) : s.journalWaiting = some .rollbackRead := by
  rw [State.journalWaiting, phase]

theorem journalWaiting_restore {block : Nat} {words : List Word} (phase : s.rollback.phase = .restore block words) :
    s.journalWaiting = some .restore := by
  rw [State.journalWaiting, phase]

theorem journalWaiting_close (phase : s.rollback.phase = .close) :
    s.journalWaiting = some (.abortAnchor (copyNotInForce s.journal.inForce)) := by
  rw [State.journalWaiting, phase]

/-- A run that is not under way leaves the journal's work: the commit anchor once the queue is drained, FORMAT's step, or
start-up's. -/
theorem journalWaiting_resting (phase : s.rollback.phase = .idle ∨ s.rollback.phase = .paused) :
    s.journalWaiting =
      if s.drained = true then some (.commitAnchor (copyNotInForce s.journal.inForce))
      else
        match s.journal.format with
        | some job => s.formatWaiting job.step
        | none => s.startWaiting := by
  rcases phase with phase | phase <;> rw [State.journalWaiting, phase] <;> rfl

theorem drained_iff :
    s.drained = true ↔ s.epoch.state = .closing ∧ ∀ e ∈ s.host.queue, e.tag ≠ some s.epoch.serial := by
  simp [State.drained, QueueEntry.taggedWith]

theorem journalWaiting_commit (phase : s.rollback.phase = .idle ∨ s.rollback.phase = .paused)
    (closing : s.epoch.state = .closing) (left : ∀ e ∈ s.host.queue, e.tag ≠ some s.epoch.serial) :
    s.journalWaiting = some (.commitAnchor (copyNotInForce s.journal.inForce)) := by
  rw [journalWaiting_resting phase, if_pos (drained_iff.2 ⟨closing, left⟩)]

theorem journalWaiting_format {job : FormatJob} (phase : s.rollback.phase = .idle ∨ s.rollback.phase = .paused)
    (going : s.epoch.state ≠ .closing) (format : s.journal.format = some job) :
    s.journalWaiting = s.formatWaiting job.step := by
  rw [journalWaiting_resting phase, if_neg fun drained => going (drained_iff.1 drained).1, format]

theorem journalWaiting_start (phase : s.rollback.phase = .idle ∨ s.rollback.phase = .paused)
    (going : s.epoch.state ≠ .closing) (format : s.journal.format = none) : s.journalWaiting = s.startWaiting := by
  rw [journalWaiting_resting phase, if_neg fun drained => going (drained_iff.1 drained).1, format]

theorem copyNotInForce_eq {c : Copy} {inForce : Option Copy} (h : c = .b ↔ inForce = some .a) :
    copyNotInForce inForce = c := by
  rcases inForce with _ | _ | _ <;> cases c <;> simp_all [copyNotInForce]

/-! ## What a grant leaves -/

/-- The requests of the device side are its own. -/
theorem side_of_deviceWaiting (asks : s.deviceWaiting = some k) : k.group.side = .device ∧ k ≠ .hostRead := by
  have journal : ∀ x, s.journalWaiting = some x → x ≠ .hostRead := by
    rintro x is rfl
    have other : s.rollback.phase ≠ .idle → s.rollback.phase ≠ .paused → False := by
      intro idle paused
      unfold State.journalWaiting at is
      split at is <;> first | cases is | contradiction
    have resting : s.rollback.phase = .idle ∨ s.rollback.phase = .paused := by
      by_contra neither
      exact other (fun h => neither (.inl h)) fun h => neither (.inr h)
    rw [journalWaiting_resting resting] at is
    split at is; · cases is
    split at is
    · unfold State.formatWaiting at is; split at is <;> cases is
    · unfold State.startWaiting at is; split at is <;> cases is
  have apart : k ≠ .hostRead := by
    simp only [State.deviceWaiting, Option.or_eq_some_iff] at asks
    rcases asks with ((wp | ⟨-, save⟩) | ⟨-, other⟩) | ⟨-, ma⟩
    · rcases wpWaiting_cases wp with rfl | rfl | rfl <;> simp
    · unfold State.saveWaiting at save
      split at save <;> cases save
      simp
    · exact journal k other
    · unfold State.maWaiting at ma
      obtain ⟨i, -, rfl⟩ := Option.map_eq_some_iff.1 ma
      simp
  exact ⟨by cases k <;> first | rfl | exact absurd rfl apart, apart⟩

/-- A grant to the device side changes the port, the head's progress, and at the second zero anchor write the anchor in
force. -/
theorem grant_device (apart : k ≠ .hostRead) :
    s.grant k =
      { s with port := (s.grant k).port, host.queue := (s.grant k).host.queue, journal := (s.grant k).journal } := by
  cases k
  case hostRead => exact absurd rfl apart
  case appendRead | queueWrite => simp only [State.grant, State.ownerGranted]; rw [headProgress_changes]
  case zeroAnchor => simp only [State.grant, State.ownerGranted]; split <;> rfl
  all_goals rfl

theorem grant_journal_eq (other : ∀ c, k ≠ .zeroAnchor c) : (s.grant k).journal = s.journal := by
  cases k
  case zeroAnchor c => exact absurd rfl (other c)
  case appendRead | queueWrite => simp only [State.grant, State.ownerGranted]; rw [headProgress_changes]
  all_goals rfl

theorem grant_host_eq (host : k ≠ .hostRead) (write : k ≠ .queueWrite) (read : k ≠ .appendRead) :
    (s.grant k).host = s.host := by
  cases k
  case hostRead => exact absurd rfl host
  case queueWrite => exact absurd rfl write
  case appendRead => exact absurd rfl read
  case zeroAnchor => simp only [State.grant, State.ownerGranted]; split <;> rfl
  all_goals rfl

theorem headProgress_eq {u : State} (queue : u.host.queue = head :: rest) (p : Progress) :
    u.headProgress p = { u with host.queue := { head with progress := p } :: rest } := by
  rw [State.headProgress, queue]

theorem headOp_eq {f : QueueEntry → Operation} (queue : s.host.queue = head :: rest) : s.headOp k f = f head := by
  rw [State.headOp, queue]

theorem grant_appendRead (queue : s.host.queue = head :: rest) :
    s.grant .appendRead =
      { s with
        host.queue := { head with progress := .appendInFlight } :: rest
        port := { op := some head.appendReadOp, alternation := .device } } := by
  have op : s.operationFor .appendRead = head.appendReadOp := headOp_eq queue
  rw [← op]
  exact headProgress_eq (u := { s with port := { op := some (s.operationFor .appendRead), alternation := .device } }) queue _

theorem grant_queueWrite (queue : s.host.queue = head :: rest) :
    s.grant .queueWrite =
      { s with
        host.queue := { head with progress := .writeInProgress } :: rest
        port := { op := some head.writeOp, alternation := .device } } := by
  have op : s.operationFor .queueWrite = head.writeOp := headOp_eq queue
  rw [← op]
  exact headProgress_eq (u := { s with port := { op := some (s.operationFor .queueWrite), alternation := .device } }) queue _

/-- The second zero anchor write leaves no anchor in force (R58), the first leaves the journal as it is. -/
theorem grant_zeroAnchor {job : FormatJob} {c : Copy} (format : s.journal.format = some job) :
    (s.grant (.zeroAnchor c)).journal =
      if job.step = .zeroSecond then { s.journal with inForce := none, anchorSerial := 0 } else s.journal := by
  obtain ⟨old, step⟩ := job
  simp only [State.grant, State.ownerGranted, format]
  cases step <;> rfl

theorem operationFor_zeroSlot {job : FormatJob} {n : Nat} (format : s.journal.format = some job) (step : job.step = .slots n) :
    s.operationFor .zeroSlot = writeOp .zeroSlot (s.journal.live.slotStart n) zeroSlotWords := by
  obtain ⟨old, step'⟩ := job
  obtain rfl : step' = .slots n := step
  simp only [State.operationFor, format]

theorem grant_host_empty (empty : s.host.queue = []) (apart : k ≠ .hostRead) : (s.grant k).host = s.host := by
  have still : ∀ (u : State) p, u.host.queue = [] → (u.headProgress p).host = u.host := fun u p none => by
    rw [State.headProgress, none]
  cases k
  case hostRead => exact absurd rfl apart
  case appendRead | queueWrite =>
    simp only [State.grant, State.ownerGranted]
    exact still _ _ empty
  case zeroAnchor => simp only [State.grant, State.ownerGranted]; split <;> rfl
  all_goals rfl

/-- The device side's turn at a free port with an empty queue: what it asks is granted, or nothing happens. -/
theorem exec_maintenance (up : s.running = true) (free : s.port.op = none) (clear : s.control.hold = false)
    (phase : s.host.phase ≠ .grantWait) (empty : s.host.queue = []) :
    ∃ t, exec .arbiterGrant s = .next t ∧ t = { s with port := t.port, journal := t.journal } ∧
      ∀ k, s.deviceWaiting = some k → t = s.grant k := by
  cases asks : s.deviceWaiting with
  | none => exact ⟨s, exec_noGrant up free (nextGrant_idle clear phase asks), rfl, fun k is => nomatch is⟩
  | some k =>
    have apart := (side_of_deviceWaiting asks).2
    refine ⟨s.grant k, exec_grant up free (nextGrant_device clear (.inl phase) asks), ?_, fun x is => by cases is; rfl⟩
    conv_lhs => rw [grant_device apart, grant_host_empty empty apart]

end Sys2Proof.Proofs

namespace Sys2Proof.Proofs
open Sys2Proof.Machine Sys2Proof.Laws

/-- Settles O25: by whose turn it is, and the order of the device side's requests. -/
theorem grantsAlternateBetweenTheSides : Obligations.GrantsAlternateBetweenTheSides := by
  refine ⟨fun s r up free clear waits shown turn => ?host, fun s k up free clear turn asks => ?device,
    fun s up free clear phase none => exec_noGrant up free (nextGrant_idle clear phase none), fun s => ⟨fun k => deviceWaiting_wp,
      fun none => ⟨deviceWaiting_save none, fun spare => ⟨fun k => deviceWaiting_journal none spare, fun idle => ⟨?lowest, ?nothing⟩⟩⟩⟩⟩
  case host =>
    have start : (s.lines.presented.map (fun r => r.addr)).getD 0 = r.addr := by rw [shown]; rfl
    rw [exec_grant up free (nextGrant_host clear waits turn), State.grant, State.operationFor, start]
    rfl
  case device =>
    obtain ⟨side, apart⟩ := side_of_deviceWaiting asks
    refine ⟨s.grant k, exec_grant up free (nextGrant_device clear turn asks), ?_, grant_device apart, grant_journal_eq,
      grant_host_eq apart⟩
    rw [grant_port, side]
  case lowest =>
    intro i arming lowest
    rw [deviceWaiting_ma none spare idle, maWaiting_lowest arming lowest]
  case nothing =>
    intro still
    rw [deviceWaiting_ma none spare idle, maWaiting_none still]

/-- Settles O26: under the hold the port looks at the write path, and then at the exempt work alone. -/
theorem theHoldGrantsOnlyWhatMustFinish : Obligations.TheHoldGrantsOnlyWhatMustFinish := by
  refine fun s up free hold => ⟨fun k asks => ?wp, fun none => ⟨fun block words phase => ?restore, fun phase closing left => ?commit,
    fun phase going => ?nothing⟩⟩
  case wp =>
    have side := side_of_deviceWaiting (deviceWaiting_wp asks)
    have journal : (s.grant k).journal = s.journal :=
      grant_journal_eq fun c zero => by rcases wpWaiting_cases asks with rfl | rfl | rfl <;> cases zero
    refine ⟨s.grant k, exec_grant up free (nextGrant_wp (.inl hold) asks), by rw [grant_port, side.1], ?_⟩
    conv_lhs => rw [grant_device side.2, journal]
  case restore =>
    have next : s.nextGrant = some .restore := by
      rw [nextGrant_held hold, none, State.exemptWaiting, journalWaiting_restore phase]
      rfl
    rw [exec_grant up free next, State.grant, State.operationFor, phase]
    rfl
  case commit =>
    have next : s.nextGrant = some (.commitAnchor (copyNotInForce s.journal.inForce)) := by
      rw [nextGrant_held hold, none, State.exemptWaiting, journalWaiting_commit phase closing left]
      rfl
    rw [exec_grant up free next]
    rfl
  case nothing =>
    have next : s.nextGrant = Option.none := by
      rw [nextGrant_held hold, none, Option.isNone_iff_eq_none.1 ((exemptWaiting_isNone going).2 phase)]
      rfl
    exact exec_noGrant up free next

/-- Settles O27: by the head's progress. -/
theorem theHeadEntryIsRetiredInStages : Obligations.TheHeadEntryIsRetiredInStages := by
  refine fun s head rest up free queue turn => ⟨fun progress => ?read, fun preimage a serial progress kept append tag => ?slot,
    fun progress => ?write⟩
  case read =>
    rw [exec_grant up free (nextGrant_wp turn (wpWaiting_appendRead queue progress)), grant_appendRead queue]
    rfl
  case slot =>
    rw [exec_grant up free (nextGrant_wp turn (wpWaiting_appendWrite queue progress kept)), State.grant, State.ownerGranted,
      State.operationFor, headOp_eq queue, State.appendWriteOp, State.appendSlot, QueueEntry.record, append, tag, kept]
    rfl
  case write =>
    rw [exec_grant up free (nextGrant_wp turn (wpWaiting_queueWrite queue progress)), grant_queueWrite queue]
    rfl

/-- Settles O28: the port grants what the run, the journal, start-up or the lowest arming cell asks. -/
theorem maintenanceAsksItsOperation : Obligations.MaintenanceAsksItsOperation := by
  rintro s c slotAt closing up free clear queue phase spare rfl slots rfl
  have slot : ∀ n, s.journal.live.slotStart (n % s.journal.live.slots.toNat) = slotAt n := fun n => (slots n).symm
  have still := wpWaiting_empty queue
  obtain ⟨t, next, keeps, asked⟩ := exec_maintenance up free clear phase queue
  have grants : ∀ k, s.journalWaiting = some k → t = s.grant k := fun k asks =>
    asked k (deviceWaiting_journal still spare asks)
  have op : ∀ k, s.journalWaiting = some k → t.port.op = some (s.operationFor k) := fun k asks => by
    rw [grants k asks, grant_port]
  refine ⟨t, next, keeps, fun p => ?read, fun block words p => ?restore, fun i resting going format done arming lowest => ?arming,
    fun p => ?abort, fun p closing => ?commit, fun job p idle format => ?format, fun p idle format => ?start⟩
  case read =>
    rw [op _ (journalWaiting_read p), ← slot]
    rfl
  case restore =>
    rw [op _ (journalWaiting_restore p), State.operationFor, p]
    rfl
  case arming =>
    have nothing : s.journalWaiting = none := by
      rw [journalWaiting_start resting going format, State.startWaiting, done]
    have asks : s.deviceWaiting = some (.arming i true) := by
      rw [deviceWaiting_ma still spare nothing, maWaiting_lowest arming lowest]
    rw [asked _ asks, grant_port]
    rfl
  case abort =>
    rw [op _ (journalWaiting_close p)]
    rfl
  case commit =>
    rw [op _ (journalWaiting_commit (.inl p) closing (by simp [queue]))]
    rfl
  case format =>
    have going : s.epoch.state ≠ .closing := by rw [idle]; simp
    have waits := journalWaiting_format (.inl p) going format
    refine ⟨fun step => ?_, fun step => ?_, fun step => ?_, fun n step below => ?_, fun step => ?_⟩
    all_goals rw [step, State.formatWaiting] at waits
    · rw [op _ waits, grants _ waits, grant_zeroAnchor format, if_neg (by rw [step]; simp)]
      exact ⟨rfl, rfl⟩
    · rw [op _ waits, grants _ waits, grant_zeroAnchor format, if_pos step]
      exact ⟨rfl, rfl⟩
    · rw [op _ waits]
      rfl
    · rw [op _ waits, ← slot, Nat.mod_eq_of_lt below, operationFor_zeroSlot format step]
      rfl
    · rw [op _ waits]
      rfl
  case start =>
    have going : s.epoch.state ≠ .closing := by rw [idle]; simp
    have waits := journalWaiting_start (.inl p) going format
    refine ⟨fun step first => ?_, fun step first => ?_, fun step first => ?_, fun step first => ?_, fun step => ?_, fun step => ?_⟩
    all_goals rw [State.startWaiting, step] at waits
    · rw [first] at waits
      rw [op _ waits]
      rfl
    · rw [Option.isSome_iff_ne_none.2 first] at waits
      rw [op _ waits]
      rfl
    · rw [first] at waits
      rw [op _ waits]
      rfl
    · rw [Option.isSome_iff_ne_none.2 first] at waits
      rw [op _ waits]
      rfl
    · rw [op _ waits, ← slot]
      rfl
    · rw [op _ waits]
      rfl

end Sys2Proof.Proofs
end

section
-- One declaration at a time: each thread that waits for another reserves memory of the check.
set_option Elab.async false
/-! The completions: what each row does when its operation is in progress, what every completion stores, and that nothing
else stores a byte or ends an operation but a reset (sections 7.1 and 9.3). -/

namespace Sys2Proof.Proofs
open Sys2Proof.Machine Sys2Proof.Laws

variable {s t u : State} {op : Operation} {c : Copy} {i : Instr}

/-! ## Each completion of the operation in progress -/

theorem exec_hostReadDone (busy : s.port.op = some op) (kind : op.kind = .hostRead) :
    exec .hostReadComplete s = .next ((s.afterOp op).completeHost (readWord s.mem op.start)) := by
  simp only [exec, execHostReadComplete, busy, kind, if_true]

theorem exec_queueWriteDone (busy : s.port.op = some op) (kind : op.kind = .queueWrite) :
    exec .queueWordWriteComplete s =
      .next ((s.afterOp op).showWrite op.start op.writes op.lanes .host).popQueue.leaveNotices := by
  simp only [exec, execQueueWordWriteComplete, busy, kind, if_true]

theorem exec_appendReadDone (busy : s.port.op = some op) (kind : op.kind = .appendRead) :
    exec .appendBlockReadComplete s = .next { s.afterOp op with journal.preimage := some (s.wordsRead op) } := by
  simp only [exec, execAppendBlockReadComplete, busy, kind, if_true]

theorem exec_appendWriteDone (busy : s.port.op = some op) (kind : op.kind = .appendWrite) :
    exec .appendSlotWriteComplete s =
      .next
        (if s.epoch.state = .rollingBack then (s.afterOp op).reportRecord.popQueue.startAbortRun.leaveNotices
        else (s.afterOp op).reportRecord.headProgress .writeWaiting) := by
  simp only [exec, execAppendSlotWriteComplete, busy, kind, if_true]

theorem exec_rollbackReadDone (busy : s.port.op = some op) (kind : op.kind = .rollbackRead) :
    exec .rollbackSlotReadComplete s = .next ((s.afterOp op).judgeRollback (s.wordsRead op)) := by
  simp only [exec, execRollbackSlotReadComplete, busy, kind, if_true]

theorem exec_restoreDone (busy : s.port.op = some op) (kind : op.kind = .restore) :
    exec .restoreWriteComplete s =
      .next ((s.afterOp op).showWrite op.start op.writes op.lanes .rollback).finishRecord := by
  simp only [exec, execRestoreWriteComplete, busy, kind, if_true]

theorem exec_commitAnchorDone (busy : s.port.op = some op) (kind : op.kind = .commitAnchor c) :
    exec .commitAnchorWriteComplete s =
      .next (((s.afterOp op).installAnchor c (s.epoch.serial + 1) s.closingTail).raise .commitDone).reachIdle := by
  simp only [exec, execCommitAnchorWriteComplete, busy, kind]

theorem exec_abortAnchorDone (busy : s.port.op = some op) (kind : op.kind = .abortAnchor c) :
    exec .abortAnchorWriteComplete s =
      .next (((s.afterOp op).installAnchor c (s.epoch.serial + 1) s.closingTail).endRun.raise .abortDone).reachIdle := by
  simp only [exec, execAbortAnchorWriteComplete, busy, kind]

theorem exec_recoveryAnchorDone (busy : s.port.op = some op) (kind : op.kind = .recoveryAnchor c) :
    exec .recoveryAnchorWriteComplete s =
      .next
        (((s.afterOp op).installAnchor c (s.journal.anchorSerial + 1) s.recoveryTail).finishRecovery.raise
          .recovered).reachReady := by
  simp only [exec, execRecoveryAnchorWriteComplete, busy, kind]

theorem exec_zeroAnchorDone (busy : s.port.op = some op) (kind : op.kind = .zeroAnchor c) :
    exec .zeroAnchorWriteComplete s = .next (s.afterOp op).advanceFormat := by
  simp only [exec, execZeroAnchorWriteComplete, busy, kind]

theorem exec_formatConfigDone (busy : s.port.op = some op) (kind : op.kind = .formatConfig c) :
    exec .formatConfigWriteComplete s = .next ((s.afterOp op).installConfig c).advanceFormat := by
  simp only [exec, execFormatConfigWriteComplete, busy, kind]

theorem exec_zeroSlotDone (busy : s.port.op = some op) (kind : op.kind = .zeroSlot) :
    exec .zeroSlotWriteComplete s = .next (s.afterOp op).advanceFormat := by
  simp only [exec, execZeroSlotWriteComplete, busy, kind, if_true]

theorem exec_formatAnchorDone (busy : s.port.op = some op) (kind : op.kind = .formatAnchor) :
    exec .formatAnchorWriteComplete s = .next ((s.afterOp op).finishFormat.raise .formatDone) := by
  simp only [exec, execFormatAnchorWriteComplete, busy, kind, if_true]

theorem exec_saveConfigDone (busy : s.port.op = some op) (kind : op.kind = .saveConfig c) :
    exec .saveConfigWriteComplete s =
      .next (State.raise { (s.afterOp op).installConfig c with regions.saving := false } .configSaved) := by
  simp only [exec, execSaveConfigWriteComplete, busy, kind]

theorem exec_firstConfigDone (busy : s.port.op = some op) (kind : op.kind = .configRead .a) :
    exec .configReadComplete s = .next { s.afterOp op with control.firstCopy := some (s.wordsRead op) } := by
  simp only [exec, execConfigReadComplete, busy, kind]

theorem exec_secondConfigDone (busy : s.port.op = some op) (kind : op.kind = .configRead .b) :
    exec .configReadComplete s =
      .next ((s.afterOp op).decideConfig (s.control.firstCopy.getD []) (s.wordsRead op)) := by
  simp only [exec, execConfigReadComplete, busy, kind]

theorem exec_firstAnchorDone (busy : s.port.op = some op) (kind : op.kind = .anchorRead .a) :
    exec .anchorReadComplete s = .next { s.afterOp op with control.firstCopy := some (s.wordsRead op) } := by
  simp only [exec, execAnchorReadComplete, busy, kind]

theorem exec_secondAnchorDone (busy : s.port.op = some op) (kind : op.kind = .anchorRead .b) :
    exec .anchorReadComplete s =
      .next ((s.afterOp op).decideAnchor (s.control.firstCopy.getD []) (s.wordsRead op)) := by
  simp only [exec, execAnchorReadComplete, busy, kind]

theorem exec_scanReadDone (busy : s.port.op = some op) (kind : op.kind = .scanRead) :
    exec .scanSlotReadComplete s = .next ((s.afterOp op).judgeScan (s.wordsRead op)) := by
  simp only [exec, execScanSlotReadComplete, busy, kind, if_true]

/-! ## What notices and classifications leave -/

/-- The memory is as it was, the operation in progress too but that its arming read may have lost its cell, and no cell has
changed but that it may be DISARMED. -/
structure Notified (s t : State) : Prop where
  mem : t.mem = s.mem
  free : s.port.op = none → t.port.op = none
  op : ∀ op, s.port.op = some op →
    t.port.op = some op ∨ ∃ cell, op.kind = .arming cell true ∧ t.port.op = some { op with kind := .arming cell false }
  cell : ∀ j : Fin 8, t.monitors[j] = s.monitors[j] ∨ t.monitors[j].state = .disarmed

theorem notified_of_eq (mem : t.mem = s.mem) (op : t.port.op = s.port.op) (cells : t.monitors = s.monitors) :
    Notified s t where
  mem := mem
  free none := op.trans none
  op _ busy := .inl (op.trans busy)
  cell j := .inl (congrArg (fun v => v[j]) cells)

theorem Notified.trans (h : Notified s t) (g : Notified t u) : Notified s u where
  mem := g.mem.trans h.mem
  free none := g.free (h.free none)
  op x busy := by
    rcases h.op x busy with same | ⟨k, kind, lost⟩
    · exact g.op x same
    · rcases g.op _ lost with same | ⟨_, again, _⟩
      · exact .inr ⟨k, kind, same⟩
      · cases again
  cell j := by
    rcases g.cell j with same | off
    · rcases h.cell j with before | off
      · exact .inl (same.trans before)
      · exact .inr ((congrArg Cell.state same).trans off)
    · exact .inr off

/-- Parts that a notice does not look at may have changed before it. -/
theorem Notified.of_eq (n : Notified t u) (mem : t.mem = s.mem) (op : t.port.op = s.port.op)
    (cells : t.monitors = s.monitors) : Notified s u := (notified_of_eq mem op cells).trans n

theorem notified_classify (s : State) : Notified s s.classify :=
  notified_of_eq (classify_mem s) (congrArg Port.op (classify_port s)) (classify_monitors s)

theorem notified_refl (s : State) : Notified s s := notified_of_eq rfl rfl rfl

theorem notified_classifiedIf (b : Bool) : Notified s (s.classifiedIf b) := by
  cases b
  · exact notified_refl s
  · exact notified_classify s

theorem notified_reclassify (x : HoldReason) : Notified s (s.reclassify x) := by
  unfold State.reclassify
  split
  · exact notified_classify s
  · exact notified_refl s

theorem notified_reclassifyGrantWait : Notified s s.reclassifyGrantWait := by
  unfold State.reclassifyGrantWait
  split
  · exact notified_classify s
  · exact notified_refl s

theorem notified_formatSwitched : Notified s (formatSwitched s) where
  mem := rfl
  free none := by simp [formatSwitched, State.disarmInJournal, none]
  op x busy := by
    have now : (formatSwitched s).port.op = some (State.discardJournalArming
        { s with
          journal :=
            { s.journal with
              live := s.journal.staged.getD s.journal.live
              staged := none
              format := s.journal.format.map (fun job => { job with step := .zeroFirst }) } } x) := by
      simp only [formatSwitched, State.disarmInJournal, busy, Option.map_some]
    rw [now]
    unfold State.discardJournalArming
    split
    next k kind =>
      split
      · exact .inr ⟨k, kind, rfl⟩
      · exact .inl rfl
    · exact .inl rfl
  cell j := by
    rw [formatSwitched_monitor]
    split
    · exact .inr rfl
    · exact .inl rfl

theorem notified_drainNotice : Notified s s.drainNotice := by
  unfold State.drainNotice
  split
  · exact notified_formatSwitched.trans (notified_reclassify .formatDrain)
  · exact notified_refl s

theorem notified_leaveNotices : Notified s s.leaveNotices := by
  have order : ∀ v : State, Notified v v.blockOrderNotice := by
    intro v
    unfold State.blockOrderNotice
    split
    · split
      · exact notified_refl v
      · exact notified_reclassify _
    · exact notified_refl v
  exact ((notified_reclassify .queueFull).trans (order _)).trans notified_drainNotice

theorem notified_startAbortRun : Notified s s.startAbortRun := by
  rw [startAbortRun_changes]
  exact notified_of_eq rfl rfl rfl

theorem notified_abortEpoch : Notified s s.abortEpoch := by
  have run : Notified (cancelled s) (cancelled s).startAbortRun.reclassifyGrantWait :=
    notified_startAbortRun.trans notified_reclassifyGrantWait
  refine (run.of_eq (s := s) rfl rfl rfl).trans ?_
  change Notified _ (State.cancelNotices _ _)
  unfold State.cancelNotices
  split
  · exact notified_leaveNotices
  · exact notified_refl _

theorem notified_reachIdle : Notified s s.reachIdle := by
  rw [reachIdle_eq]
  exact Notified.of_eq (notified_classifiedIf _) rfl rfl rfl

theorem notified_reachReady : Notified s s.reachReady := by
  rw [reachReady_eq]
  exact Notified.of_eq (notified_classifiedIf _) rfl rfl rfl

theorem notified_finishRecord : Notified s s.finishRecord := by
  rw [finishRecord_changes]
  exact notified_of_eq rfl rfl rfl

theorem notified_advanceFormat : Notified s s.advanceFormat := by
  rw [advanceFormat_changes]
  exact notified_of_eq rfl rfl rfl

theorem notified_headProgress (p : Progress) : Notified s (s.headProgress p) := by
  rw [headProgress_changes]
  exact notified_of_eq rfl rfl rfl

theorem notified_judgeRollback (ws : List Word) : Notified s (s.judgeRollback ws) := by
  unfold State.judgeRollback
  split
  · exact notified_of_eq rfl rfl rfl
  · exact Notified.of_eq notified_finishRecord rfl rfl rfl

theorem notified_decideConfig (a b : List Word) : Notified s (s.decideConfig a b) := by
  unfold State.decideConfig
  split
  · exact Notified.of_eq notified_reachReady rfl rfl rfl
  · split
    · exact Notified.of_eq notified_reachReady rfl rfl rfl
    · exact Notified.of_eq (notified_reclassify .starting) rfl rfl rfl

theorem notified_decideAnchor (a b : List Word) : Notified s (s.decideAnchor a b) := by
  unfold State.decideAnchor
  split
  · exact Notified.of_eq notified_reachReady rfl rfl rfl
  · exact notified_of_eq rfl rfl rfl

theorem notified_judgeScan (ws : List Word) : Notified s (s.judgeScan ws) := by
  have ends : ∀ n, Notified s (s.endScan n) := by
    intro n
    unfold State.endScan
    split
    · exact Notified.of_eq notified_reachReady rfl rfl rfl
    · exact notified_of_eq rfl rfl rfl
  unfold State.judgeScan
  split
  · split
    · exact ends _
    · exact notified_of_eq rfl rfl rfl
  · exact ends _

/-! ## What every completion does to the memory and the cells -/

/-- The part right after the operation's words are stored and shown, and its arming read is taken, before its owner goes
on. -/
def stored (s : State) (op : Operation) : State :=
  match op.kind with
  | .queueWrite => (s.afterOp op).showWrite op.start op.writes op.lanes .host
  | .restore => (s.afterOp op).showWrite op.start op.writes op.lanes .rollback
  | .arming k true => (s.afterOp op).armed k (readWord s.mem op.start)
  | _ => s.afterOp op

theorem stored_mem (s : State) (op : Operation) : (stored s op).mem = writeWords s.mem op.start op.lanes op.writes := by
  unfold stored
  split <;> rfl

theorem stored_op (s : State) (op : Operation) : (stored s op).port.op = none := by
  unfold stored
  split <;> rfl

/-- The completion of the operation in progress: its words stored and shown, and then what notices leave. -/
theorem notified_of_completion (busy : s.port.op = some op) (next : exec (completionOf op.kind) s = .next t) :
    Notified (stored s op) t := by
  unfold stored
  cases kind : op.kind <;> rw [kind] at next <;> dsimp only [completionOf] at next ⊢
  case hostRead =>
    cases (exec_hostReadDone busy kind).symm.trans next
    exact notified_of_eq rfl rfl rfl
  case queueWrite =>
    cases (exec_queueWriteDone busy kind).symm.trans next
    exact Notified.of_eq notified_leaveNotices rfl rfl rfl
  case appendRead =>
    cases (exec_appendReadDone busy kind).symm.trans next
    exact notified_of_eq rfl rfl rfl
  case appendWrite =>
    cases (exec_appendWriteDone busy kind).symm.trans next
    split
    · exact Notified.of_eq (notified_startAbortRun.trans notified_leaveNotices) rfl rfl rfl
    · exact Notified.of_eq (notified_headProgress _) rfl rfl rfl
  case rollbackRead =>
    cases (exec_rollbackReadDone busy kind).symm.trans next
    exact notified_judgeRollback _
  case restore =>
    cases (exec_restoreDone busy kind).symm.trans next
    exact notified_finishRecord
  case commitAnchor c =>
    cases (exec_commitAnchorDone busy kind).symm.trans next
    exact Notified.of_eq notified_reachIdle rfl rfl rfl
  case abortAnchor c =>
    cases (exec_abortAnchorDone busy kind).symm.trans next
    exact Notified.of_eq notified_reachIdle rfl rfl rfl
  case recoveryAnchor c =>
    cases (exec_recoveryAnchorDone busy kind).symm.trans next
    exact Notified.of_eq notified_reachReady rfl rfl rfl
  case zeroAnchor c =>
    cases (exec_zeroAnchorDone busy kind).symm.trans next
    exact notified_advanceFormat
  case formatConfig c =>
    cases (exec_formatConfigDone busy kind).symm.trans next
    exact Notified.of_eq notified_advanceFormat rfl rfl rfl
  case zeroSlot =>
    cases (exec_zeroSlotDone busy kind).symm.trans next
    exact notified_advanceFormat
  case formatAnchor =>
    cases (exec_formatAnchorDone busy kind).symm.trans next
    exact notified_of_eq rfl rfl rfl
  case saveConfig c =>
    cases (exec_saveConfigDone busy kind).symm.trans next
    exact notified_of_eq rfl rfl rfl
  case arming k wanted =>
    cases wanted
    · cases (exec_discardedRead busy kind).symm.trans next
      exact notified_refl _
    · cases (exec_armingRead busy kind).symm.trans next
      exact notified_refl _
  case configRead c =>
    cases c
    · cases (exec_firstConfigDone busy kind).symm.trans next
      exact notified_of_eq rfl rfl rfl
    · cases (exec_secondConfigDone busy kind).symm.trans next
      exact notified_decideConfig _ _
  case anchorRead c =>
    cases c
    · cases (exec_firstAnchorDone busy kind).symm.trans next
      exact notified_of_eq rfl rfl rfl
    · cases (exec_secondAnchorDone busy kind).symm.trans next
      exact notified_decideAnchor _ _
  case scanRead =>
    cases (exec_scanReadDone busy kind).symm.trans next
    exact notified_judgeScan _

/-! ## Rows that store nothing (R121) -/

/-- The memory is as it was, and so is the operation in progress but that its arming read may have lost its cell. -/
structure Stays (s t : State) : Prop where
  mem : t.mem = s.mem
  op : ∀ op, s.port.op = some op →
    t.port.op = some op ∨ ∃ cell, op.kind = .arming cell true ∧ t.port.op = some { op with kind := .arming cell false }

theorem Notified.stays (n : Notified s t) : Stays s t := ⟨n.mem, n.op⟩

theorem stays_of_eq (mem : t.mem = s.mem) (op : t.port.op = s.port.op) : Stays s t := ⟨mem, fun _ busy => .inl (op.trans busy)⟩

theorem stays_refl (s : State) : Stays s s := stays_of_eq rfl rfl

theorem Stays.of_eq (n : Stays t u) (mem : t.mem = s.mem) (op : t.port.op = s.port.op) : Stays s u :=
  ⟨n.mem.trans mem, fun x busy => n.op x (op.trans busy)⟩

theorem stays_startFormat : Stays s s.startFormat :=
  Stays.of_eq (Notified.stays (notified_reclassifyGrantWait.trans notified_drainNotice)) rfl rfl

theorem stays_storeTable (x : RegionTable) : Stays s (s.storeTable x) := by
  unfold State.storeTable
  split <;> exact stays_of_eq rfl rfl

theorem stays_disarm (k : Fin 8) : Stays s (s.disarm k) := by
  rw [disarm_eq]
  refine ⟨rfl, fun op busy => ?_⟩
  simp only [busy, Option.map_some]
  split
  next kind => exact .inr ⟨k, kind, rfl⟩
  · exact .inl rfl

/-- No owner's rule stores a byte or ends an operation. -/
theorem stays_ownerRule (i : Instr) (s : State) : Stays s (ownerRule i s).after := by
  cases i
  case begin | readSet | getRegion | getMonitor | clearEvents | setEventEnables | saveConfig =>
    simp only [ownerRule, takeBegin, takeReadSet, takeGetRegion, takeGetMonitor, takeClearEvents, takeSetEventEnables,
      takeSaveConfig]
    repeat' split
    all_goals exact stays_of_eq rfl rfl
  case commit | renew =>
    simp only [ownerRule, takeCommit, takeRenew]
    split <;> exact stays_of_eq rfl rfl
  case abort =>
    simp only [ownerRule, takeAbort]
    split
    case h_1 | h_2 => exact notified_abortEpoch.stays
    all_goals exact stays_refl s
  case setJournal =>
    simp only [ownerRule, takeSetJournal]
    repeat' split
    all_goals exact stays_of_eq rfl rfl
  case format =>
    simp only [ownerRule, takeFormat]
    split; · exact stays_refl s
    split; · exact stays_refl s
    split; · exact stays_refl s
    split; · exact stays_refl s
    exact stays_startFormat
  case setRegion =>
    simp only [ownerRule, takeSetRegion]
    split; · exact stays_refl s
    split
    case isFalse => exact stays_refl s
    split
    · exact stays_refl s
    · exact stays_storeTable _
    · split
      · exact stays_refl s
      · split
        · exact stays_refl s
        · exact stays_storeTable _
  case setDefaults =>
    simp only [ownerRule, takeSetDefaults]
    split; · exact stays_refl s
    split
    · exact stays_storeTable _
    · exact stays_refl s
  case armMonitor =>
    simp only [ownerRule, takeArmMonitor]
    split
    case isFalse => exact stays_refl s
    split; · exact stays_refl s
    split; · exact stays_refl s
    split; · exact stays_refl s
    split; · exact stays_refl s
    exact stays_of_eq rfl rfl
  case disarmMonitor =>
    simp only [ownerRule, takeDisarmMonitor]
    split
    · exact stays_disarm _
    · exact stays_refl s
  all_goals exact stays_of_eq rfl rfl

theorem stays_gated (k : Command) (i : Instr) (s : State) : Stays s (s.gated k (ownerRule i)).after := by
  rcases gated_cases (s := s) (c := k) (own := ownerRule i) with ⟨refused, -⟩ | ⟨taken, -⟩
  · rw [refused]; exact stays_refl s
  · rw [taken]; exact stays_ownerRule i s

theorem stays_settle {d : Decision} (h : Stays s d.after) (code : Byte) (args : List Byte) :
    Stays s (d.settle code args) := ⟨h.mem, h.op⟩

theorem stays_decideFrame (code : Byte) (args : List Byte) (s : State) : Stays s (decideFrame code args s).after := by
  unfold decideFrame
  split
  · exact stays_refl s
  split
  · split
    · exact stays_gated _ _ s
    · exact stays_refl s
  · exact stays_refl s

theorem stays_frameByte (byte : Byte) (s : State) : Stays s (s.frameByte byte) := by
  unfold State.frameByte
  split
  case h_4 =>
    split
    · exact stays_settle (stays_decideFrame _ _ s) _ _
    · exact stays_of_eq rfl rfl
  case h_5 =>
    split
    · exact stays_settle (stays_decideFrame _ _ s) _ _
    · exact stays_of_eq rfl rfl
  all_goals exact stays_of_eq rfl rfl

theorem stays_present (r : HostRequest) (s : State) : Stays s (s.present r) := by
  simp only [State.present]
  split; · exact stays_refl s
  split
  · exact Stays.of_eq (notified_classify _).stays rfl rfl
  · exact stays_of_eq rfl rfl

theorem stays_expire (s : State) : Stays s s.expire := by
  simp only [State.expire]
  split
  · exact stays_of_eq rfl rfl
  · exact Stays.of_eq notified_abortEpoch.stays rfl rfl

theorem stays_enterHold (s : State) : Stays s s.enterHold := by
  have paused : Stays s (State.pauseRun (State.raise { s with control.hold := true } .holdEntered)) := by
    rw [pauseRun_changes]
    exact stays_of_eq rfl rfl
  simp only [State.enterHold, State.holdGrantWait]
  split
  · exact ⟨paused.mem, paused.op⟩
  · exact paused

theorem stays_leaveHold (s : State) : Stays s ({ s with lines.pfw := false } : State).leaveHold := by
  have cleared : Stays s (holdCleared s) := Stays.of_eq (notified_reclassify .power).stays rfl rfl
  have granted : Stays s (holdCleared s).clearGrant := by
    rcases clearGrant_cases (holdCleared s) with same | ⟨free, -, k, -, granted⟩
    · rw [same]; exact cleared
    · refine ⟨?_, fun op busy => ?_⟩
      · rw [granted, ← cleared.mem]
        split
        · rw [grant_changes]
        · rfl
      · rcases cleared.op op busy with same | ⟨_, _, lost⟩
        · cases free.symm.trans same
        · cases free.symm.trans lost
  rw [leaveHold_eq, resumeRun_changes]
  exact ⟨granted.mem, granted.op⟩

/-- A grant stores nothing, and there is no operation for it to end. -/
theorem stays_grant {k : OpKind} (free : s.port.op = none) : Stays s (s.grant k) :=
  ⟨by rw [grant_changes], fun _ busy => nomatch free.symm.trans busy⟩

/-- A row of a completion whose operation is not in progress changes nothing (log 5). -/
theorem exec_of_no_op {k : OpKind} (other : ∀ op, s.port.op = some op → completionOf k ≠ completionOf op.kind) :
    exec (completionOf k) s = .next s := by
  cases busy : s.port.op with
  | none =>
    cases k <;> simp only [completionOf, exec, execHostReadComplete, execQueueWordWriteComplete,
      execAppendBlockReadComplete, execAppendSlotWriteComplete, execRollbackSlotReadComplete, execRestoreWriteComplete,
      execCommitAnchorWriteComplete, execAbortAnchorWriteComplete, execRecoveryAnchorWriteComplete,
      execZeroAnchorWriteComplete, execFormatConfigWriteComplete, execZeroSlotWriteComplete,
      execFormatAnchorWriteComplete, execSaveConfigWriteComplete, execArmingReadComplete, execConfigReadComplete,
      execAnchorReadComplete, execScanSlotReadComplete, busy]
  | some op =>
    have apart := other op busy
    cases k <;> simp only [completionOf, exec, execHostReadComplete, execQueueWordWriteComplete,
      execAppendBlockReadComplete, execAppendSlotWriteComplete, execRollbackSlotReadComplete, execRestoreWriteComplete,
      execCommitAnchorWriteComplete, execAbortAnchorWriteComplete, execRecoveryAnchorWriteComplete,
      execZeroAnchorWriteComplete, execFormatConfigWriteComplete, execZeroSlotWriteComplete,
      execFormatAnchorWriteComplete, execSaveConfigWriteComplete, execArmingReadComplete, execConfigReadComplete,
      execAnchorReadComplete, execScanSlotReadComplete, busy] <;> split
    all_goals first | rfl | exact absurd (by simp only [‹op.kind = _›, completionOf]) apart

/-- A row that is no completion of the operation in progress and begins no reset stores nothing. -/
theorem stays_exec (quiet : mayReset i = false) (next : exec i s = .next t)
    (other : ∀ op, s.port.op = some op → i ≠ completionOf op.kind) : Stays s t := by
  have idle : ∀ k, i = completionOf k → Stays s t := by
    rintro k rfl
    cases (exec_of_no_op other).symm.trans next
    exact stays_refl s
  have decides : ∀ k, commandOf i = some k → Stays s t := by
    intro k m
    obtain ⟨args, -, e⟩ := exec_of_commandOf m
    cases (e s).symm.trans next
    unfold State.command
    split
    · exact stays_settle (stays_gated k i s) _ _
    · exact stays_refl s
  cases i
  case status | begin | commit | abort | renew | readSet | setJournal | format | setRegion | getRegion | setDefaults
      | saveConfig | armMonitor | disarmMonitor | getMonitor | readEvents | clearEvents | setEventEnables | readFault
      | clearFault | restart => exact decides _ rfl
  case badCommandFrame code args =>
    cases next
    split
    · exact stays_settle (stays_decideFrame code args s) _ _
    · exact stays_refl s
  case managementByteComplete byte =>
    cases next
    split
    · exact stays_frameByte byte s
    · exact stays_refl s
  case chipSelectFall =>
    cases next
    split; · exact stays_refl s
    split <;> exact stays_of_eq rfl rfl
  case hostWrite | hostRead =>
    cases next
    exact stays_present _ s
  case arbiterGrant =>
    cases next
    split
    next can =>
      split
      · exact stays_grant can.2
      · exact stays_refl s
    · exact stays_refl s
  case ageTick =>
    cases next
    split
    · split
      · exact stays_expire s
      · exact stays_of_eq rfl rfl
    · exact stays_refl s
  case ageExpiry =>
    cases next
    split
    · exact stays_expire s
    · exact stays_refl s
  case pfwAssert =>
    cases next
    split; · exact stays_refl s
    split
    · exact Stays.of_eq (stays_enterHold _) rfl rfl
    · exact stays_of_eq rfl rfl
  case pfwDeassert =>
    cases next
    split; · exact stays_refl s
    split
    · exact stays_leaveHold s
    · exact stays_of_eq rfl rfl
  case powerResetEnd =>
    cases next
    split
    · split
      · exact stays_of_eq rfl rfl
      · exact Stays.of_eq (notified_classify _).stays rfl rfl
    · exact stays_refl s
  case rstnDeassert =>
    cases next
    split; · exact stays_refl s
    split
    · exact Stays.of_eq (notified_classify _).stays rfl rfl
    · exact stays_of_eq rfl rfl
  case chipSelectRise | powerOn | powerLoss | rstnAssert => cases quiet
  case hostReadComplete => exact idle .hostRead rfl
  case queueWordWriteComplete => exact idle .queueWrite rfl
  case appendBlockReadComplete => exact idle .appendRead rfl
  case appendSlotWriteComplete => exact idle .appendWrite rfl
  case rollbackSlotReadComplete => exact idle .rollbackRead rfl
  case restoreWriteComplete => exact idle .restore rfl
  case commitAnchorWriteComplete => exact idle (.commitAnchor .a) rfl
  case abortAnchorWriteComplete => exact idle (.abortAnchor .a) rfl
  case zeroAnchorWriteComplete => exact idle (.zeroAnchor .a) rfl
  case formatConfigWriteComplete => exact idle (.formatConfig .a) rfl
  case zeroSlotWriteComplete => exact idle .zeroSlot rfl
  case formatAnchorWriteComplete => exact idle .formatAnchor rfl
  case saveConfigWriteComplete => exact idle (.saveConfig .a) rfl
  case armingReadComplete => exact idle (.arming 0 true) rfl
  case configReadComplete => exact idle (.configRead .a) rfl
  case anchorReadComplete => exact idle (.anchorRead .a) rfl
  case scanSlotReadComplete => exact idle .scanRead rfl
  case recoveryAnchorWriteComplete => exact idle (.recoveryAnchor .a) rfl

/-! ## Writes shown to the cells (R156 to R158) -/

variable {x : Machine.Cell} {start : WordAddr} {words : List Word} {lanes : Lanes} {source : Source} {w : Word}

/-- A fold that raises MON flags leaves the others and sets those chosen (R157, R162). -/
theorem foldl_raise_bit (p : Fin 8 → Bool) {k : Nat} (h : k < 22) : ∀ (l : List (Fin 8)) (e : Events),
    (l.foldl (fun e j => if p j then e.raise (.mon j) else e) e).flags.getLsbD k =
      (e.flags.getLsbD k || l.any fun j => p j && decide (k = 14 + j.val))
  | [], e => by simp
  | j :: rest, e => by
    rw [List.foldl_cons, foldl_raise_bit p h rest, List.any_cons]
    split
    next chosen =>
      have position : (EventFlag.mon j).position = 14 + j.val := rfl
      rw [events_raise_bit e (.mon j) h, position, chosen, Bool.true_and, Bool.or_assoc]
    next other => rw [Bool.eq_false_iff.2 other, Bool.false_and, Bool.false_or]

theorem showWrite_bit {k : Nat} (h : k < 22) :
    (s.showWrite start words lanes source).events.flags.getLsbD k =
      (s.events.flags.getLsbD k ||
        (List.finRange 8).any fun j => s.monitors[j].triggered start words lanes && decide (k = 14 + j.val)) :=
  foldl_raise_bit _ h _ _

/-- The flags below the cells' are left (R157). -/
theorem showWrite_bit_low {k : Nat} (low : k < 14) :
    (s.showWrite start words lanes source).events.flags.getLsbD k = s.events.flags.getLsbD k := by
  have none : ((List.finRange 8).any fun j => s.monitors[j].triggered start words lanes && decide (k = 14 + j.val)) = false := by
    refine List.any_eq_false.2 fun j _ => ?_
    simp only [Bool.and_eq_true, decide_eq_true_eq, not_and]
    omega
  rw [showWrite_bit (by omega), none, Bool.or_false]

/-- A cell's own flag is set exactly by its trigger. -/
theorem showWrite_has (j : Fin 8) :
    (s.showWrite start words lanes source).events.has (.mon j) =
      (s.events.has (.mon j) || s.monitors[j].triggered start words lanes) := by
  have own : ((List.finRange 8).any fun k => s.monitors[k].triggered start words lanes && decide (14 + j.val = 14 + k.val)) =
      s.monitors[j].triggered start words lanes := by
    rw [Bool.eq_iff_iff, List.any_eq_true]
    constructor
    · rintro ⟨k, -, fires⟩
      simp only [Bool.and_eq_true, decide_eq_true_eq] at fires
      have same : j = k := Fin.ext (by omega)
      rw [same]
      exact fires.1
    · exact fun fires => ⟨j, List.mem_finRange j, Bool.and_eq_true_iff.2 ⟨fires, decide_eq_true rfl⟩⟩
  have flag := showWrite_bit (s := s) (start := start) (words := words) (lanes := lanes) (source := source) (k := 14 + j.val)
    (by omega)
  rw [own] at flag
  exact flag

theorem triggered_of_not_armed (off : x.armed = false) : x.triggered start words lanes = false := by
  unfold Cell.triggered
  split
  · rw [off, Bool.false_and]
  · rfl

theorem evaluate_outside (outside : x.wordIn start words = none) : x.evaluate start words lanes source = x := by
  simp only [Cell.evaluate, outside]

theorem triggered_outside (outside : x.wordIn start words = none) : x.triggered start words lanes = false := by
  simp only [Cell.triggered, outside]

theorem wordIn_none (off : x.addr.toNat < start.toNat ∨ start.toNat + words.length ≤ x.addr.toNat) :
    x.wordIn start words = none := by
  unfold Cell.wordIn
  rcases off with below | above
  · rw [if_neg (not_le.2 below)]
  · rw [if_pos (by omega), List.getElem?_eq_none (by omega)]

theorem wordIn_some (low : start.toNat ≤ x.addr.toNat) (here : words[x.addr.toNat - start.toNat]? = some w) :
    x.wordIn start words = some w := by
  rw [Cell.wordIn, if_pos low, here]

theorem triggered_iff (armed : x.armed = true) (inside : x.wordIn start words = some w) :
    x.triggered start words lanes = true ↔
      x.trigger = .depart ∧ x.state = .matching ∧ (x.merged w lanes).state = .mismatch ∨
        x.trigger = .arrive ∧ x.state = .mismatch ∧ (x.merged w lanes).state = .matching := by
  simp only [Cell.triggered, inside, armed, Bool.true_and]
  cases x.trigger <;> simp [Trigger.counts]

theorem evaluate_triggered (armed : x.armed = true) (inside : x.wordIn start words = some w)
    (fires : x.triggered start words lanes = true) :
    x.evaluate start words lanes source =
      { x.merged w lanes with count := min 15 (x.count + 1), lastSource := source } := by
  simp only [Cell.evaluate, inside, armed, fires, if_true]

theorem evaluate_untriggered (armed : x.armed = true) (inside : x.wordIn start words = some w)
    (still : x.triggered start words lanes = false) : x.evaluate start words lanes source = x.merged w lanes := by
  simp only [Cell.evaluate, inside, armed, still, if_true, Bool.false_eq_true, if_false]

/-- What the words stored leave of the shadows (R158). -/
theorem shadowsEqual_stored (wf : s.memoryWf) (law : shadowsEqual s)
    (within : op.start.toNat + op.writes.length ≤ 1048576)
    (off : op.kind = .queueWrite ∨ op.kind = .restore ∨
      (∀ j : Fin 8, s.monitors[j].armed = true → s.monitors[j].addr.toNat < op.start.toNat ∨
        op.start.toNat + op.writes.length ≤ s.monitors[j].addr.toNat))
    (arming : ∀ cell, op.kind = .arming cell true → op.start = s.monitors[cell].addr ∧ op.writes = []) :
    shadowsEqual (stored s op) := by
  have after : op.kind ≠ .queueWrite → op.kind ≠ .restore → shadowsEqual (s.afterOp op) := by
    intro write restore j armed
    have away := (off.resolve_left write).resolve_left restore j (armed_iff.2 armed)
    exact (law j armed).trans (readWord_outside s.mem op.start _ op.lanes op.writes within away).symm
  unfold stored
  split
  next => exact shadowsEqual_showWrite law wf op _ within
  next => exact shadowsEqual_showWrite law wf op _ within
  next k kind =>
    obtain ⟨start, none⟩ := arming k kind
    refine shadowsEqual_set (after (by simp [kind]) (by simp [kind])) k _ fun _ => ?_
    have same : s.mem = (s.afterOp op).mem := by rw [afterOp_read none]
    rw [start, same]
    rfl
  next write restore _ => exact after write restore

end Sys2Proof.Proofs

namespace Sys2Proof.Proofs
open Sys2Proof.Machine Sys2Proof.Laws

/-- Settles O29: the completion stores the words and then nothing else does. -/
theorem completionsStoreTheirWords : Obligations.CompletionsStoreTheirWords := by
  intro s op wf busy short
  obtain ⟨t, next⟩ := exec_next (completionOf op.kind) s
  have n := notified_of_completion busy next
  have mem : t.mem = writeWords s.mem op.start op.lanes op.writes := n.mem.trans (stored_mem s op)
  refine ⟨t, next, n.free (stored_op s op), fun a kept => ?_, fun i w here => ?_⟩
  · rw [mem]
    exact readByte_writeWords op.writes s.mem op.start op.lanes a fun i lt =>
      ⟨fun lane same => kept ⟨i, lt, .inl ⟨same, lane⟩⟩, fun lane same => kept ⟨i, lt, .inr ⟨same, lane⟩⟩⟩
  · rw [mem]
    exact readWord_writeWords op.writes s.mem op.start op.lanes i w wf (by omega) here

/-- Settles O30: row by row, none of them stores. -/
theorem onlyCompletionsAndResetsStore : Obligations.OnlyCompletionsAndResetsStore := by
  intro i s t quiet next other
  have stays := stays_exec quiet next other
  exact ⟨stays.mem, stays.op⟩

/-- Settles O36: cell by cell, and after a completion for every cell still armed. -/
theorem shownWritesAreEvaluated : Obligations.ShownWritesAreEvaluated := by
  refine ⟨fun s start words lanes source => ⟨showWrite_changes .., fun k => showWrite_bit_low, fun i => ⟨fun still => ?still,
    fun w c counts armed low here merged direction => ?armed⟩⟩, fun s t op wf law busy within off arming next i armed => ?shadow⟩
  case still =>
    rw [showWrite_monitor, showWrite_has]
    have out : s.monitors[i].evaluate start words lanes source = s.monitors[i] ∧
        s.monitors[i].triggered start words lanes = false := by
      rcases still with off | off | off
      · have unarmed : s.monitors[i].armed = false :=
          Bool.eq_false_iff.2 fun on => by rcases armed_iff.1 on with h | h <;> cases off.symm.trans h
        exact ⟨evaluate_of_not_armed _ _ _ _ unarmed, triggered_of_not_armed unarmed⟩
      · have unarmed : s.monitors[i].armed = false :=
          Bool.eq_false_iff.2 fun on => by rcases armed_iff.1 on with h | h <;> cases off.symm.trans h
        exact ⟨evaluate_of_not_armed _ _ _ _ unarmed, triggered_of_not_armed unarmed⟩
      · exact ⟨evaluate_outside (wordIn_none off), triggered_outside (wordIn_none off)⟩
    exact ⟨out.1, by rw [out.2, Bool.or_false]⟩
  case armed =>
    have on := armed_iff.2 armed
    have inside := wordIn_some low here
    have same : c = s.monitors[i].merged w lanes := merged
    rw [same, ← triggered_iff on inside] at direction
    rw [showWrite_monitor, showWrite_has]
    refine ⟨fun fires => ?_, fun still => ?_⟩
    · have fired := direction.1 fires
      have count : min 15 (s.monitors[i].count + 1) = if c.count < 15 then c.count + 1 else 15 := by
        rw [same]
        show min 15 (s.monitors[i].count + 1) = if s.monitors[i].count < 15 then s.monitors[i].count + 1 else 15
        split <;> omega
      rw [evaluate_triggered on inside fired, fired, Bool.or_true, count, same]
      exact ⟨rfl, rfl⟩
    · have quiet := Bool.eq_false_iff.2 (mt direction.2 still)
      rw [evaluate_untriggered on inside quiet, quiet, Bool.or_false, same]
      exact ⟨rfl, rfl⟩
  case shadow =>
    have n := notified_of_completion busy next
    have equal : shadowsEqual s := fun j used => law j (armed_iff.2 used)
    have kept := (n.cell i).resolve_right fun off => by rw [Cell.armed, off] at armed; cases armed
    rw [kept] at armed ⊢
    rw [n.mem]
    exact shadowsEqual_stored wf equal within off arming i (armed_iff.1 armed)

end Sys2Proof.Proofs
end

section
-- One declaration at a time: each thread that waits for another reserves memory of the check.
set_option Elab.async false
/-! The completions of the epoch's, the run's, FORMAT's and start-up's operations as whole next states (sections 1.5, 1.6,
3.3 to 3.7, 4.3, 4.4, 5.5, 6.3, 8.3 and 8.4). -/

namespace Sys2Proof.Proofs
open Sys2Proof.Machine Sys2Proof.Laws

variable {s t u w : State} {op : Operation} {c : Copy} {r : HostRequest} {job : FormatJob} {n : Nat}

/-! ## What a classification does to the queue -/

/-- A read classified leaves the queue, and is never held with FORMAT_DRAIN (R115). -/
theorem classify_read (shown : s.lines.presented = some r) (read : r.kind = .read) :
    s.classify.host.queue = s.host.queue ∧ s.classify.host.phase ≠ .held .formatDrain := by
  have accepted : s.classify = State.acceptRead { s with host.phase := .classifying } r := by
    rw [State.classify, shown]
    dsimp only
    rw [read]
  rw [accepted, State.acceptRead]
  split; · exact ⟨rfl, nofun⟩
  split; · exact ⟨rfl, nofun⟩
  split
  · exact ⟨rfl, nofun⟩
  · exact ⟨rfl, nofun⟩
  · exact ⟨rfl, nofun⟩
  split; · exact ⟨rfl, nofun⟩
  split; · exact ⟨rfl, nofun⟩
  split <;> exact ⟨rfl, nofun⟩

theorem classify_write (shown : s.lines.presented = some r) (write : r.kind = .write) :
    s.classify = State.acceptWrite { s with host.phase := .classifying } r := by
  rw [State.classify, shown]
  dsimp only
  rw [write]

/-- The reason with which a write is held in the drain step (R103). -/
def drainReason (s : State) : HoldReason :=
  if s.control.device = .starting then .starting else if s.control.hold = true then .power else .formatDrain

/-- In the drain step a write is held (R103). -/
theorem classify_draining (shown : s.lines.presented = some r) (write : r.kind = .write) (drains : s.draining = true) :
    s.classify = s.holdHost (drainReason s) := by
  have drains : State.draining { s with host.phase := .classifying } = true := drains
  rw [classify_write shown write, State.acceptWrite, if_pos drains, drainReason]
  split
  · rfl
  · split <;> rfl

theorem classify_queue_nil (drains : s.draining = true) (empty : s.host.queue = []) : s.classify.host.queue = [] := by
  cases shown : s.lines.presented with
  | none => rw [classify_none shown, empty]
  | some r =>
    cases kind : r.kind with
    | read => rw [(classify_read shown kind).1, empty]
    | write =>
      rw [classify_draining shown kind drains]
      exact empty

/-- No classification takes an entry out of the queue. -/
theorem Classified.queue_ne (h : Classified s t) (some : s.host.queue ≠ []) : t.host.queue ≠ [] := by
  cases h with
  | claimed => rw [reserve_changes]; exact List.append_ne_nil_of_right_ne_nil _ (List.cons_ne_nil _ _)
  | plain | hit => exact List.append_ne_nil_of_right_ne_nil _ (List.cons_ne_nil _ _)
  | _ => exact some

theorem drainNotice_still (still : s.draining = false ∨ s.host.queue ≠ []) : s.drainNotice = s := by
  refine if_neg fun ends => ?_
  rcases still with off | some
  · exact Bool.false_ne_true (off.symm.trans ends.1)
  · exact some ends.2

theorem drainNotice_ends (drains : s.draining = true) (empty : s.host.queue = []) :
    s.drainNotice = (formatSwitched s).reclassify .formatDrain := if_pos ⟨drains, empty⟩

/-- With no entry gone that ends the drain, the notices are at most one classification. -/
theorem leaveNotices_still (still : s.draining = false ∨ s.host.queue ≠ []) :
    s.leaveNotices = s.classifiedIf (s.leaveFrees s.host.queue) := by
  rw [State.leaveNotices, notices_eq]
  refine drainNotice_still ?_
  rcases still with off | some
  · refine .inl ?_
    unfold State.classifiedIf
    split
    · unfold State.draining
      rw [classify_journal]
      exact off
    · exact off
  · refine .inr ?_
    unfold State.classifiedIf
    split
    · exact (classified s).queue_ne some
    · exact some

/-! ## FORMAT's step 2 beside a request -/

/-- Step 2 looks at the journal, the cells and the port alone. -/
theorem formatSwitched_congr (journal : w.journal = u.journal) (cells : w.monitors = u.monitors) (port : w.port = u.port) :
    formatSwitched w =
      { w with
        journal := (formatSwitched u).journal, monitors := (formatSwitched u).monitors, port := (formatSwitched u).port } := by
  obtain ⟨_, _, j, _, _, _, p, _, m, _, _, _, _, _, _⟩ := w
  obtain rfl : j = u.journal := journal
  obtain rfl : m = u.monitors := cells
  obtain rfl : p = u.port := port
  rfl

theorem formatSwitched_free (free : s.port.op = none) : (formatSwitched s).port = s.port := by
  have op : ∀ f : Operation → Operation, ({ s.port with op := s.port.op.map f } : Port) = s.port := fun f => by
    rw [free, Option.map_none, ← free]
  exact op _

/-! ## The steps of FORMAT -/

theorem advanceFormat_job (format : s.journal.format = some job) :
    s.advanceFormat = { s with journal.format := some { job with step := nextFormatStep s.slots job.step } } := by
  rw [State.advanceFormat, format]
  dsimp only
  rw [State.formatStep, format, Option.map_some]

/-! ## A finished record -/

/-- An abort run goes on to its next record or to its anchor, or pauses (R71, R76). -/
theorem finishRecord_abort (run : s.rollback.run = .abort) (left : 1 ≤ s.rollback.remaining) :
    s.finishRecord =
      { s with
        rollback :=
          { s.rollback with
            remaining := s.rollback.remaining - 1
            phase := if s.control.hold then .paused else if s.rollback.remaining = 1 then .close else .read } } := by
  unfold State.finishRecord
  by_cases last : s.rollback.remaining = 1
  · rw [if_pos (show s.rollback.remaining - 1 = 0 by omega), run, last]
    rfl
  · rw [if_neg (show ¬s.rollback.remaining - 1 = 0 by omega), if_neg last]

/-- A recovery run with records left goes on to its next, or pauses (R76). -/
theorem finishRecord_next (left : 2 ≤ s.rollback.remaining) :
    s.finishRecord =
      { s with
        rollback :=
          { s.rollback with
            remaining := s.rollback.remaining - 1, phase := if s.control.hold then .paused else .read } } := by
  unfold State.finishRecord
  rw [if_neg (show ¬s.rollback.remaining - 1 = 0 by omega)]

/-- A recovery run's last record leads to start-up's anchor write (R66). -/
theorem finishRecord_recovered (run : s.rollback.run = .recovery) (last : s.rollback.remaining = 1) :
    s.finishRecord =
      { s with
        control.step := .anchorWrite
        rollback := { s.rollback with run := .none, remaining := 0, phase := .idle } } := by
  unfold State.finishRecord
  rw [if_pos (show s.rollback.remaining - 1 = 0 by omega), run]

theorem judgeRollback_valid {ws words : List Word} {block : Nat}
    (valid : judgeRecord s.rollback.expected (s.rollback.remaining - 1) s.journal.live ws = some (block, words)) :
    s.judgeRollback ws = { s with rollback.phase := .restore block words } := by
  rw [State.judgeRollback, valid]

theorem judgeRollback_damaged {ws : List Word}
    (damaged : judgeRecord s.rollback.expected (s.rollback.remaining - 1) s.journal.live ws = none) :
    s.judgeRollback ws = (State.raise { s with rollback := s.rollback.countDamage } .rollbackDamage).finishRecord := by
  rw [State.judgeRollback, damaged]
  rfl

/-! ## The copies chosen -/

theorem chooseConfig_eq {a b : Option StoredConfig} {x : StoredConfig}
    (larger : c = .a ∧ a = some x ∧ (∀ d, b = some d → d.generation ≤ x.generation) ∨
      c = .b ∧ b = some x ∧ ∀ d, a = some d → d.generation < x.generation) :
    chooseConfig a b = some (c, x) := by
  rcases larger with ⟨rfl, rfl, most⟩ | ⟨rfl, rfl, most⟩
  · cases b with
    | none => rfl
    | some d => exact if_neg (BitVec.not_lt.2 (most d rfl))
  · cases a with
    | none => rfl
    | some d => exact if_pos (most d rfl)

theorem chooseAnchor_eq {a b : Option Anchor} {x : Anchor}
    (larger : c = .a ∧ a = some x ∧ (∀ d, b = some d → d.next ≤ x.next) ∨
      c = .b ∧ b = some x ∧ ∀ d, a = some d → d.next < x.next) :
    chooseAnchor a b = some (c, x) := by
  rcases larger with ⟨rfl, rfl, most⟩ | ⟨rfl, rfl, most⟩
  · cases b with
    | none => rfl
    | some d => exact if_neg (BitVec.not_lt.2 (most d rfl))
  · cases a with
    | none => rfl
    | some d => exact if_pos (most d rfl)

theorem reclassify_eq (x : HoldReason) : s.reclassify x = s.classifiedIf (s.host.phase == .held x) := by
  unfold State.reclassify State.classifiedIf
  simp only [beq_iff_eq]

/-! ## The scan (R139) -/

theorem scanHit_iff {ws : List Word} :
    s.scanHit ws = true ↔ s.journal.anchorSerial ≠ 4294967295 ∧
      judgeRecord s.journal.anchorSerial s.control.scanIndex s.journal.live ws ≠ none := by
  rw [State.scanHit, Bool.and_eq_true, bne_iff_ne, Option.isSome_iff_ne_none]
  rfl

theorem endScan_some (found : 1 ≤ n) : s.endScan n = s.startRecoveryRun n := if_neg (by omega)

end Sys2Proof.Proofs

namespace Sys2Proof.Proofs
open Sys2Proof.Machine Sys2Proof.Laws

/-- Settles O19: both completions put their anchor in force and bring the epoch to IDLE. -/
theorem epochAnchorsBringIdle : Obligations.EpochAnchorsBringIdle := by
  refine ⟨fun s op c busy kind => ?_, fun s op c busy kind => ?_⟩
  · rw [exec_commitAnchorDone busy kind, reachIdle_eq]
    rfl
  · rw [exec_abortAnchorDone busy kind, reachIdle_eq]
    rfl

/-- Settles O43: step by step. -/
theorem formatRunsThroughItsSteps : Obligations.FormatRunsThroughItsSteps := by
  rintro s u op job busy format rfl
  have after : ∀ v : State, v.journal = s.journal →
      v.advanceFormat = { v with journal.format := some { job with step := nextFormatStep s.slots job.step } } := by
    intro v same
    have slots : v.slots = s.slots := by rw [State.slots, same]; rfl
    rw [← slots]
    exact advanceFormat_job (by rw [same, format])
  refine ⟨fun c kind => ⟨fun step => ?_, fun step => ?_⟩, fun c kind step => ?_, fun k kind step => ?_, fun kind => ?_⟩
  · rw [exec_zeroAnchorDone busy kind, after (s.afterOp op) rfl, step]; rfl
  · rw [exec_zeroAnchorDone busy kind, after (s.afterOp op) rfl, step]; rfl
  · rw [exec_formatConfigDone busy kind, after ((s.afterOp op).installConfig c) rfl, step]; rfl
  · rw [exec_zeroSlotDone busy kind, after (s.afterOp op) rfl, step]; rfl
  · rw [exec_formatAnchorDone busy kind]; rfl

/-- Settles O46: the checks, the write granted before the journal's work, and its completion. -/
theorem saveConfigStoresTheLiveValues : Obligations.SaveConfigStoresTheLiveValues := by
  refine ⟨fun s q ready free => ?checks, fun s c up idle free empty turn saving other => ?write, fun s op c busy kind => ?done⟩
  case checks =>
    rw [exec_ready (i := .saveConfig) (c := .saveConfig) rfl rfl q ready free, ownerRule, takeSaveConfig]
    by_cases storing : s.regions.saving = true ∨ s.journal.format ≠ none
    · rw [if_pos ((storing_iff s).2 storing), if_pos storing]; rfl
    rw [if_neg (mt (storing_iff s).1 storing), if_neg storing]
    by_cases staged : s.regions.staged = none
    · rw [if_neg (by simp [staged]), if_neg (not_not.2 staged)]
      by_cases last : s.regions.generation = 4294967295
      · rw [if_pos (show s.regions.generation = Config.maxSerial from last), if_pos last]; rfl
      · have copy : (copyNotInForce s.regions.inForce).code = if s.regions.inForce = some .a then 1 else 0 := by
          rcases s.regions.inForce with _ | _ | _ <;> rfl
        rw [if_neg (show ¬s.regions.generation = Config.maxSerial from last), if_neg last, copy]; rfl
    · rw [if_pos (Option.isSome_iff_ne_none.2 staged), if_pos staged]; rfl
  case write =>
    have asks := deviceWaiting_save (wpWaiting_empty empty) saving
    rw [copyNotInForce_eq other] at asks
    rw [exec_grant up idle (nextGrant_device free turn asks)]
    rfl
  case done =>
    rw [exec_saveConfigDone busy kind]
    rfl

/-- Settles O47: copy A is kept, and the two judged decide. -/
theorem startUpLoadsTheConfiguration : Obligations.StartUpLoadsTheConfiguration := by
  refine ⟨fun s op busy read kind => ?first, ?second⟩
  case first =>
    rw [exec_firstConfigDone busy kind, afterOp_read read]
    rfl
  case second =>
    rintro s u op first a b busy read kind kept rfl rfl rfl
    have copy : s.control.firstCopy.getD [] = first := by rw [kept, Option.getD_some]
    rw [exec_secondConfigDone busy kind, afterOp_read read, State.decideConfig, copy]
    refine ⟨fun a b => ?_, fun copy x v larger loaded => ?_⟩
    · have chosen : chooseConfig (judgeConfig first) (judgeConfig (s.wordsRead op)) = none := by
        rw [a, show judgeConfig (s.wordsRead op) = none from b]
        rfl
      rw [chosen]
      dsimp only
      rw [reachReady_eq]
      rfl
    · subst loaded
      have chosen : chooseConfig (judgeConfig first) (judgeConfig (s.wordsRead op)) = some (copy, x) :=
        chooseConfig_eq larger
      rw [chosen]
      dsimp only
      refine ⟨fun none => ?_, fun some => ?_⟩
      · rw [if_pos none, reachReady_eq]
        rfl
      · rw [if_neg some, State.enterRecovering, reclassify_eq]
        rfl

/-- Settles O48: copy A is kept, and the two judged decide. -/
theorem startUpSelectsTheAnchor : Obligations.StartUpSelectsTheAnchor := by
  refine ⟨fun s op busy read kind => ?first, ?second⟩
  case first =>
    rw [exec_firstAnchorDone busy kind, afterOp_read read]
    rfl
  case second =>
    rintro s u op first a b busy read kind kept rfl rfl rfl
    have copy : s.control.firstCopy.getD [] = first := by rw [kept, Option.getD_some]
    rw [exec_secondAnchorDone busy kind, afterOp_read read, State.decideAnchor, copy]
    dsimp only
    refine ⟨fun a b => ?_, fun copy x larger => ?_⟩
    · have chosen : chooseAnchor (judgeAnchor s.journal.live first) (judgeAnchor s.journal.live (s.wordsRead op)) = none := by
        rw [a, show judgeAnchor s.journal.live (s.wordsRead op) = none from b]
        rfl
      rw [chosen]
      dsimp only
      rw [reachReady_eq]
      rfl
    · have chosen : chooseAnchor (judgeAnchor s.journal.live first) (judgeAnchor s.journal.live (s.wordsRead op)) =
          some (copy, x) := chooseAnchor_eq larger
      rw [chosen]
      rfl

/-- Settles O49: by the record judged, the scan index and the slot count. -/
theorem startUpScansForTheUnfinishedEpoch : Obligations.StartUpScansForTheUnfinishedEpoch := by
  rintro s u op hit n busy read kind rfl judged
  have found : State.scanHit { s with port.op := none } (s.wordsRead op) = true ↔ hit := scanHit_iff.trans judged.symm
  rw [exec_scanReadDone busy kind, afterOp_read read, State.judgeScan]
  refine ⟨fun valid below => ?_, fun invalid zero => ?_, fun ends => ?_⟩
  · exact congrArg Host.Outcome.next ((if_pos (found.2 valid)).trans (if_neg (not_le.2 below)))
  · have none : State.endScan { s with port.op := none } s.control.scanIndex = State.reachReady
        { s with
          port.op := none
          epoch.serial := s.journal.anchorSerial
          journal.status := .formatted
          control := { s.control with lastN := 0, lastDamage := 0 } } := if_pos zero
    rw [if_neg (mt found.1 invalid)]
    dsimp only
    rw [none, reachReady_eq]
    rfl
  · rcases ends with ⟨invalid, rfl, some⟩ | ⟨valid, rfl, full⟩
    · rw [if_neg (mt found.1 invalid)]
      dsimp only
      rw [endScan_some some]
      rfl
    · exact congrArg Host.Outcome.next
        ((if_pos (found.2 valid)).trans ((if_pos full).trans (endScan_some (Nat.le_add_left 1 _))))

/-- Settles O50: the completion finishes recovery and reaches READY. -/
theorem theRecoveryAnchorEndsRecovery : Obligations.TheRecoveryAnchorEndsRecovery := by
  intro s op c busy kind
  rw [exec_recoveryAnchorDone busy kind, reachReady_eq]
  rfl

end Sys2Proof.Proofs
end

section
-- One declaration at a time: each thread that waits for another reserves memory of the check.
set_option Elab.async false
/-! The completions of the head entry's and the run's operations, and FORMAT's drain (sections 3.3, 3.7, 4.3, 4.4 and
6.3). -/

namespace Sys2Proof.Proofs
open Sys2Proof.Machine Sys2Proof.Laws

variable {s t u w : State} {op : Operation} {head : QueueEntry} {rest : List QueueEntry} {a : Append}

/-! ## The record of an append (R8, R32, R45) -/

theorem reportRecord_eq (queue : s.host.queue = head :: rest) (append : head.append = some a) :
    s.reportRecord =
      { s with
        epoch.written := s.epoch.written + 1
        loggedSet := s.loggedSet.map (fun e => if e.sequence = a.sequence then { e with state := .logged } else e)
        journal.preimage := none } := by
  have sequence : s.headSequence = some a.sequence := by rw [State.headSequence, queue]; simp only [append, Option.map_some]
  rw [State.reportRecord, sequence, markLogged]
  simp only [Option.some.injEq]

theorem draining_false (none : s.journal.format = .none) : s.draining = false := by rw [State.draining, none]

theorem appendInFlight_false (idle : ∀ e ∈ s.host.queue, e.progress ≠ .appendInFlight) : s.appendInFlight = false := by
  unfold State.appendInFlight
  split
  next queue => exact beq_eq_false_iff_ne.2 (idle _ (queue ▸ List.mem_cons_self))
  next => rfl

/-! ## Whether an entry gone frees the request held (R111, R116) -/

theorem leaveFrees_other (full : s.host.phase ≠ .held .queueFull) (order : s.host.phase ≠ .held .blockOrder) :
    s.leaveFrees rest = false := by
  rw [State.leaveFrees, beq_eq_false_iff_ne.2 full, beq_eq_false_iff_ne.2 order, Bool.false_and, Bool.false_and]
  rfl

theorem leaveFrees_full (full : s.host.phase = .held .queueFull) : s.leaveFrees rest = s.lines.presented.isSome := by
  rw [State.leaveFrees, full, beq_self_eq_true, Bool.true_and, show (HostPhase.held .queueFull == .held .blockOrder) = false from rfl,
    Bool.false_and, Bool.or_false]

theorem leaveFrees_order (order : s.host.phase = .held .blockOrder) : s.leaveFrees [] = s.lines.presented.isSome := by
  rw [State.leaveFrees, order, show (HostPhase.held .blockOrder == .held .queueFull) = false from rfl]
  cases s.lines.presented <;> rfl

theorem classifiedIf_presented : s.classifiedIf s.lines.presented.isSome = s.classify := by
  cases shown : s.lines.presented with
  | none => exact (classify_none shown).symm
  | some r => rfl

/-! ## A classification just before the switch of FORMAT's step 2 -/

theorem reclassify_other {x : HoldReason} (other : s.host.phase ≠ .held x) : s.reclassify x = s := if_neg other

theorem reclassify_held {x : HoldReason} (held : s.host.phase = .held x) : s.reclassify x = s.classify := if_pos held

theorem formatSwitched_classify :
    formatSwitched u.classify =
      { u.classify with
        journal := (formatSwitched u).journal, monitors := (formatSwitched u).monitors, port := (formatSwitched u).port } :=
  formatSwitched_congr (classify_journal u) (classify_monitors u) (classify_port u)

/-- Past the drain a write that STARTING or POWER holds is held for it as before (R103). -/
theorem classify_heldFirst {r : HostRequest} (shown : s.lines.presented = some r) (write : r.kind = .write)
    (first : drainReason s ≠ .formatDrain) : s.classify = s.holdHost (drainReason s) := by
  rw [classify_write shown write, State.acceptWrite]
  unfold drainReason at first ⊢
  split
  · rfl
  next ready =>
    rw [if_neg ready] at first
    split
    · rfl
    next free => exact absurd (if_neg free) first

/-- A write classified in the drain step and again past it is classified once, past it (R56, R103). -/
theorem formatSwitched_classify_write (drains : u.draining = true) (other : u.host.phase ≠ .held .formatDrain)
    (writes : ∀ r, u.lines.presented = some r → r.kind = .write) :
    (formatSwitched u.classify).reclassify .formatDrain = (formatSwitched u).classify := by
  cases shown : u.lines.presented with
  | none => rw [classify_none shown, reclassify_other (by exact other), classify_none (by exact shown)]
  | some r =>
    have write := writes r shown
    have held : formatSwitched u.classify = (formatSwitched u).holdHost (drainReason u) := by
      rw [formatSwitched_classify, classify_draining shown write drains]
      rfl
    rw [held]
    by_cases waits : drainReason u = .formatDrain
    · rw [waits, reclassify_held rfl]
      exact (classify_phase (formatSwitched u) _).trans (if_neg (by exact shown ▸ Option.some_ne_none r))
    · rw [reclassify_other (by exact fun same => waits (HostPhase.held.inj same))]
      exact (classify_heldFirst (s := formatSwitched u) shown write waits).symm

/-- A read classified in the drain step stays as it is past it (R56, R115). -/
theorem formatSwitched_classify_read (other : u.host.phase ≠ .held .formatDrain)
    (reads : ∀ r, u.lines.presented = some r → r.kind = .read) :
    (formatSwitched u.classify).reclassify .formatDrain = formatSwitched u.classify := by
  refine reclassify_other (show u.classify.host.phase ≠ .held .formatDrain from ?_)
  cases shown : u.lines.presented with
  | none => rw [classify_none shown]; exact other
  | some r => exact (classify_read shown (reads r shown)).2

/-! ## The last entry gone in the drain step (R56, R111) -/

theorem formatSwitched_eq {job : FormatJob} (format : s.journal.format = some job) (free : s.port.op = none) :
    formatSwitched s =
      { s with
        journal :=
          { s.journal with
            live := s.journal.staged.getD s.journal.live
            staged := none
            format := some { job with step := .zeroFirst } }
        monitors := (formatSwitched s).monitors } := by
  have split : formatSwitched s =
      { s with
        journal :=
          { s.journal with
            live := s.journal.staged.getD s.journal.live
            staged := none
            format := s.journal.format.map (fun job => { job with step := .zeroFirst }) }
        monitors := (formatSwitched s).monitors
        port := (formatSwitched s).port } := rfl
  rw [formatSwitched_free free, format] at split
  exact split

theorem leaveNotices_ends (drains : u.draining = true) (empty : u.host.queue = []) :
    u.leaveNotices = (formatSwitched (u.classifiedIf (u.leaveFrees []))).reclassify .formatDrain := by
  rw [State.leaveNotices, notices_eq, empty]
  cases u.leaveFrees [] with
  | false => exact drainNotice_ends drains empty
  | true =>
    have drains' : u.classify.draining = true := by
      unfold State.draining
      rw [classify_journal]
      exact drains
    exact drainNotice_ends drains' (classify_queue_nil drains empty)

/-! ## FORMAT taken (R55, R56, R117) -/

theorem reclassifyGrantWait_eq : s.reclassifyGrantWait = s.classifiedIf (s.host.phase == .grantWait) := by
  unfold State.reclassifyGrantWait State.classifiedIf
  simp only [beq_iff_eq]

theorem startFormat_drains (some : s.host.queue ≠ []) :
    s.startFormat = (formatStarted s).classifiedIf (s.host.phase == .grantWait) := by
  have kept : ((formatStarted s).classifiedIf (s.host.phase == .grantWait)).host.queue ≠ [] := by
    unfold State.classifiedIf
    split
    · exact (classified (formatStarted s)).queue_ne some
    · exact some
  exact (congrArg State.drainNotice reclassifyGrantWait_eq).trans (drainNotice_still (.inr kept))

/-- With an empty queue FORMAT goes to step 2 at once; no request is then held with FORMAT_DRAIN. -/
theorem startFormat_switches (empty : s.host.queue = []) (phase : s.host.phase ≠ .held .formatDrain)
    (waits : s.host.phase = .grantWait → ∃ r, s.lines.presented = some r ∧ r.kind = .read)
    (same : w = (formatStarted s).classifiedIf (s.host.phase == .grantWait)) :
    s.startFormat = w.formatSwitch ∧ w.host.phase ≠ .held .formatDrain ∧ w.journal = (formatStarted s).journal ∧
      w.monitors = s.monitors ∧ w.port = s.port := by
  have started : s.startFormat = w.drainNotice := by
    rw [same]
    exact congrArg State.drainNotice reclassifyGrantWait_eq
  rw [started]
  by_cases grant : s.host.phase = .grantWait
  · obtain ⟨r, shown, read⟩ := waits grant
    obtain rfl : w = (formatStarted s).classify := by rw [same, grant]; rfl
    have drains : (formatStarted s).classify.draining = true := by
      unfold State.draining
      rw [classify_journal]
      rfl
    exact ⟨if_pos ⟨drains, classify_queue_nil rfl empty⟩, (classify_read (s := formatStarted s) shown read).2,
      classify_journal _, classify_monitors _, classify_port _⟩
  · obtain rfl : w = formatStarted s := by rw [same, beq_eq_false_iff_ne.2 grant]; rfl
    exact ⟨if_pos ⟨rfl, empty⟩, phase, rfl, rfl, rfl⟩

theorem reclassify_keeps (x : HoldReason) :
    (s.reclassify x).journal = s.journal ∧ (s.reclassify x).monitors = s.monitors ∧ (s.reclassify x).mem = s.mem ∧
      (s.reclassify x).port = s.port := by
  unfold State.reclassify
  split
  · exact ⟨classify_journal s, classify_monitors s, classify_mem s, classify_port s⟩
  · exact ⟨rfl, rfl, rfl, rfl⟩

theorem formatSwitched_classifiedIf (b : Bool) :
    (formatSwitched (u.classifiedIf b)).journal = (formatSwitched u).journal ∧
      (formatSwitched (u.classifiedIf b)).monitors = (formatSwitched u).monitors ∧
      (formatSwitched (u.classifiedIf b)).mem = (formatSwitched u).mem ∧
      (formatSwitched (u.classifiedIf b)).port = (formatSwitched u).port := by
  cases b
  · exact ⟨rfl, rfl, rfl, rfl⟩
  · rw [State.classifiedIf, if_pos rfl, formatSwitched_classify]
    exact ⟨rfl, rfl, classify_mem u, rfl⟩

end Sys2Proof.Proofs

namespace Sys2Proof.Proofs
open Sys2Proof.Machine Sys2Proof.Laws

/-- Settles O38: the record is judged or restored, and then finished. -/
theorem runsJudgeAndRestoreTheirRecords : Obligations.RunsJudgeAndRestoreTheirRecords := by
  refine ⟨fun s op judged busy kind read same => ?read, fun s u op busy kind same => ?restore⟩
  case read =>
    subst same
    rw [exec_rollbackReadDone busy kind, afterOp_read read]
    refine ⟨fun block words valid => ?_, fun bad run left => ?_, fun bad run => ⟨fun left => ?_, fun last => ?_⟩⟩
    · exact congrArg Host.Outcome.next (judgeRollback_valid valid)
    · rw [judgeRollback_damaged (s := { s with port.op := none }) (ws := s.wordsRead op) bad, finishRecord_abort (by exact run) (by exact left)]
      simp only [Rollback.countDamage, run, if_true]
      rfl
    · rw [judgeRollback_damaged (s := { s with port.op := none }) (ws := s.wordsRead op) bad, finishRecord_next (by exact left)]
      simp only [Rollback.countDamage, run, reduceCtorEq, if_false]
      rfl
    · rw [judgeRollback_damaged (s := { s with port.op := none }) (ws := s.wordsRead op) bad, finishRecord_recovered (by exact run) (by exact last)]
      simp only [Rollback.countDamage, run, reduceCtorEq, if_false]
      rfl
  case restore =>
    have shown : (s.afterOp op).showWrite op.start op.writes op.lanes .rollback = u := same.symm ▸ rfl
    rw [exec_restoreDone busy kind, shown]
    subst same
    exact ⟨fun run left => congrArg Host.Outcome.next (finishRecord_abort run left),
      fun _ left => congrArg Host.Outcome.next (finishRecord_next left),
      fun run last => congrArg Host.Outcome.next (finishRecord_recovered run last)⟩

/-- Settles O34: the record is reported, and the head goes on or leaves the queue. -/
theorem appendsReportTheirRecord : Obligations.AppendsReportTheirRecord := by
  refine ⟨fun s op busy kind read => ?read, fun s op head rest a logged busy kind queue append same => ?write⟩
  case read =>
    rw [exec_appendReadDone busy kind, afterOp_read read]
    rfl
  case write =>
    subst same
    rw [exec_appendWriteDone busy kind, reportRecord_eq (s := s.afterOp op) queue append]
    refine ⟨fun other => ?_, fun rolls run format idle => ?_⟩
    · rw [if_neg other]
      rw [headProgress_eq (by exact queue)]
      rfl
    · rw [if_pos rolls, State.popQueue]
      dsimp only
      obtain rfl : s.host.queue.tail = rest := by rw [queue, List.tail_cons]
      have quiet := appendInFlight_false (s := { s with host.queue := s.host.queue.tail }) idle
      rw [State.startAbortRun, if_pos ⟨rolls, run, quiet⟩, leaveNotices_still (.inl (draining_false (by exact format)))]
      rfl

/-- Settles O33: with an entry left or no drain the notices are one classification; else step 2 follows. -/
theorem queueWritesRetireTheHead : Obligations.QueueWritesRetireTheHead := by
  intro s u op busy kind same
  have popped : ((s.afterOp op).showWrite op.start op.writes op.lanes .host).popQueue = u := same.symm ▸ rfl
  rw [exec_queueWriteDone busy kind, popped]
  refine ⟨fun still => ?still, fun old format empty => ?ends⟩
  case still =>
    subst same
    exact congrArg Host.Outcome.next (leaveNotices_still still)
  case ends =>
    have job : u.journal.format = some { old := old, step := .drain } := by rw [same]; exact format
    have drains : u.draining = true := draining_of_job job rfl
    have none : u.host.queue = [] := by rw [same]; exact empty
    have phase : u.host.phase = s.host.phase := by rw [same]
    have lines : u.lines = s.lines := by rw [same]
    have free : u.port.op = .none := by rw [same]
    have journal : u.journal = s.journal := by rw [same]
    rw [← phase, ← lines, ← journal]
    obtain ⟨journalKept, cellsKept, memKept, portKept⟩ :=
      reclassify_keeps (s := formatSwitched (u.classifiedIf (u.leaveFrees []))) .formatDrain
    obtain ⟨journalSame, cellsSame, memSame, portSame⟩ := formatSwitched_classifiedIf (u := u) (u.leaveFrees [])
    refine ⟨_, formatSwitched u, congrArg Host.Outcome.next (leaveNotices_ends drains none), ?_,
      fun i => formatSwitched_monitor u i, journalKept.trans journalSame, cellsKept.trans cellsSame,
      memKept.trans memSame, portKept.trans portSame, fun full order drain => ?_, fun drain => ?_, fun full writes => ?_,
      fun order reads => ?_⟩
    · exact formatSwitched_eq job free
    · rw [leaveFrees_other full order]
      exact reclassify_other drain
    · rw [leaveFrees_other (drain ▸ nofun) (drain ▸ nofun)]
      exact reclassify_held drain
    · rw [leaveFrees_full full, classifiedIf_presented]
      exact formatSwitched_classify_write drains (full ▸ nofun) writes
    · rw [leaveFrees_order order, classifiedIf_presented, formatSwitched_classify_read (order ▸ nofun) reads,
        formatSwitched_classify, show (formatSwitched u).port = u.classify.port from
          (formatSwitched_free free).trans (classify_port u).symm]

/-- Settles O42: check by check; with an empty queue the drain ends at once. -/
theorem formatFollowsItsChecks : Obligations.FormatFollowsItsChecks := by
  rintro s u q ready free rfl
  rw [exec_ready (i := .format) (c := .format) rfl rfl q ready free, ownerRule, takeFormat]
  refine ⟨fun other => ?_, fun idle => ?_⟩
  · rw [if_pos other]
    rfl
  rw [if_neg (not_not.2 idle)]
  refine ⟨fun storing => ?_, fun saving format => ?_⟩
  · rw [if_pos (storing_eq_true storing)]
    rfl
  rw [if_neg (Bool.eq_false_iff.1 (storing_eq_false saving format))]
  refine ⟨fun staged live => ?_, fun place last => ?_, fun place more => ?_⟩
  · rw [if_pos ⟨staged, live⟩]
    rfl
  · rw [if_neg (not_and_or.2 place), if_pos (show s.regions.generation = Config.maxSerial from last)]
    rfl
  rw [if_neg (not_and_or.2 place), if_neg (show ¬s.regions.generation = Config.maxSerial from more)]
  refine ⟨fun some => ?_, fun empty phase waits live off placed watched => ?_⟩
  · rw [startFormat_drains some]
    rfl
  · obtain ⟨switch, quiet, journal, cells, port⟩ := startFormat_switches empty phase waits rfl
    rw [switch, formatSwitch_eq _ live off (by rw [journal]; exact placed) watched, beq_eq_false_iff_ne.2 quiet, journal, cells,
      congrArg Port.op port]
    rfl

end Sys2Proof.Proofs
end

section
-- One declaration at a time: each thread that waits for another reserves memory of the check.
set_option Elab.async false
/-! The age timer, the events that cannot arise and the state after reset (sections 1.7, 6.1, 7.1 and 8.2). -/

namespace Sys2Proof.Proofs
open Sys2Proof.Machine Sys2Proof.Laws

variable {s : State} {r : HostRequest}

/-! ## The age timer (R18, R19, R20) -/

theorem counting_eq_true (open' : s.epoch.state = .opened ∨ s.epoch.state = .doomed) (runs : s.epoch.ageRunning = true)
    (free : s.control.hold = false) : s.counting = true := (counting_iff s).2 ⟨open', runs, free⟩

theorem expire_notify (policy : s.regions.live.defaults.agePolicy = .notify) :
    s.expire =
      { s with
        epoch := { s.epoch with ageElapsed := s.regions.live.defaults.ageLimit, ageRunning := false }
        events.flags := s.events.flags ||| EventFlag.ageExpired.mask } := by
  rw [State.expire, policy]
  rfl

theorem expire_abort (policy : s.regions.live.defaults.agePolicy = .abort) (format : s.journal.format = none) :
    s.expire =
      State.aborted
        { s with
          epoch := { s.epoch with ageElapsed := s.regions.live.defaults.ageLimit, ageRunning := false }
          events.flags := s.events.flags ||| EventFlag.ageExpired.mask } := by
  rw [State.expire, policy]
  exact abortEpoch_eq _ format

theorem exec_ageTick_expires (counts : s.counting = true)
    (reaches : s.epoch.ageElapsed + 1 = s.regions.live.defaults.ageLimit) : exec .ageTick s = .next s.expire :=
  congrArg Host.Outcome.next ((if_pos counts).trans (if_pos reaches))

theorem exec_ageExpiry_expires (counts : s.counting = true)
    (due : s.epoch.ageElapsed + 1 = s.regions.live.defaults.ageLimit ∨
      s.epoch.ageElapsed = s.regions.live.defaults.ageLimit) : exec .ageExpiry s = .next s.expire :=
  congrArg Host.Outcome.next (if_pos ⟨counts, due⟩)

/-! ## A request on the lines (R99, R100) -/

theorem present_again (waits : s.lines.presented ≠ none) : s.present r = s :=
  if_pos (Option.isSome_iff_ne_none.2 waits)

theorem present_inReset (none : s.lines.presented = .none) (down : s.running = false) :
    s.present r =
      { s with lines := { s.lines with presented := some r, ready := false, error := false, hostData := 0 } } := by
  have down : State.running
      { s with lines := { s.lines with presented := some r, ready := false, error := false, hostData := 0 } } = false :=
    down
  rw [State.present, if_neg (by rw [none]; exact Bool.false_ne_true)]
  exact if_neg (Bool.eq_false_iff.1 down)

end Sys2Proof.Proofs

namespace Sys2Proof.Proofs
open Sys2Proof.Machine Sys2Proof.Laws

/-- Settles O18: by whether the timer counts, whether the limit is reached, and the policy. -/
theorem theAgeTimerCountsAndExpires : Obligations.TheAgeTimerCountsAndExpires := by
  refine ⟨fun s => ⟨fun still => ?_, fun state runs free => ?_⟩, fun s still => ?_, fun s state runs free => ?_⟩
  · exact congrArg Host.Outcome.next (if_neg (mt (counting_iff s).1 still))
  · have counts := counting_eq_true state runs free
    refine ⟨fun before => ?_, fun reaches policy => ?_, fun reaches policy format => ?_⟩
    · exact congrArg Host.Outcome.next ((if_pos counts).trans (if_neg before))
    · rw [exec_ageTick_expires counts reaches, expire_notify policy]
    · rw [exec_ageTick_expires counts reaches, expire_abort policy format]
  · exact congrArg Host.Outcome.next (if_neg fun expires => still ((counting_iff s).1 expires.1))
  · have counts := counting_eq_true state runs free
    refine ⟨fun reaches => ?_, fun due policy => ?_, fun due policy format => ?_, fun before past => ?_⟩
    · rw [exec_ageExpiry_expires counts (.inl reaches), exec_ageTick_expires counts reaches]
    · rw [exec_ageExpiry_expires counts due, expire_notify policy]
    · rw [exec_ageExpiry_expires counts due, expire_abort policy format]
    · exact congrArg Host.Outcome.next (if_neg fun expires => expires.2.elim before past)

/-- Settles O53: each row asks first whether its event can arise. -/
theorem eventsThatCannotAriseChangeNothing : Obligations.EventsThatCannotAriseChangeNothing := by
  refine ⟨fun s => ⟨fun low => ?_, fun high => ?_, fun on => ?_, fun off => ?_, fun on => ?_, fun off => ?_, fun other => ?_,
    fun shut => ?_, fun k other => ?_⟩, fun s addr lanes data => ⟨fun waits => ?_, fun none down => ?_⟩⟩
  · exact congrArg Host.Outcome.next (if_pos low)
  · exact congrArg Host.Outcome.next (if_pos high)
  · exact congrArg Host.Outcome.next (if_pos on)
  · exact congrArg Host.Outcome.next (if_pos off)
  · exact congrArg Host.Outcome.next (if_pos on)
  · exact congrArg Host.Outcome.next (if_pos off)
  · exact congrArg Host.Outcome.next (if_neg other)
  · exact congrArg Host.Outcome.next (if_neg fun free => shut.elim (fun down => Bool.false_ne_true (down.symm.trans free.1))
      fun busy => busy free.2)
  · exact exec_of_no_op fun op busy same => other op busy same.symm
  · exact ⟨congrArg Host.Outcome.next (present_again waits), congrArg Host.Outcome.next (present_again waits)⟩
  · exact ⟨congrArg Host.Outcome.next (present_inReset none down), congrArg Host.Outcome.next (present_inReset none down)⟩

/-- Settles O54: the state after reset is one whose blocks are reset. -/
theorem resetMeetsTheInvariants : Obligations.ResetMeetsTheInvariants := by
  have wf : State.reset.memoryWf := ⟨List.Pairwise.nil, nofun⟩
  have blocks : State.reset = State.reset.resetBlocks .power := rfl
  unfold Obligations.ResetMeetsTheInvariants
  rw [blocks]
  exact ⟨wf, bounded_resetBlocks _ _, workLaw_resetBlocks _ _, writeAheadLaw_resetBlocks _ _, regionLaw_resetBlocks _ _,
    serialLaw_resetBlocks _ _, shadowLaw_resetBlocks _ wf, fun _ => ⟨rfl, iff_of_true rfl rfl⟩, heldInReset_resetBlocks _ _,
    rfl, rfl⟩

end Sys2Proof.Proofs
end

section
-- One declaration at a time: each thread that waits for another reserves memory of the check.
set_option Elab.async false
/-! Resets, and the words a write cut short leaves (sections 7.10 and 8.2). -/

namespace Sys2Proof.Proofs
open Sys2Proof.Machine Sys2Proof.Laws

variable {s t : State} {op : Operation} {m : List Host.Cell} {a b : WordAddr} {lanes : Lanes} {mask w : Word} {ws : List Word}

/-! ## The words of a torn write (R132) -/

theorem readWord_tornWords_of_ne {cut : Nat} (apart : ∀ i, i < ws.length → b ≠ a + BitVec.ofNat 20 i) :
    readWord (tornWords m a lanes mask ws cut) b = readWord m b := by
  rw [readWord, readWord,
    readByte_tornWords _ _ _ _ _ _ _ fun i within => ⟨(lowByteAt_ne_highByteAt _ _).symm, highByteAt_inj (apart i within)⟩,
    readByte_tornWords _ _ _ _ _ _ _ fun i within => ⟨lowByteAt_inj (apart i within), lowByteAt_ne_highByteAt _ _⟩]

/-- The words before the cut are new. -/
theorem readWord_tornWords_before (ws : List Word) : ∀ {m : List Host.Cell} {a : WordAddr} {cut k : Nat}, Memory.wf m →
    ws.length ≤ 1048576 → ws[k]? = some w → k < cut →
    readWord (tornWords m a lanes mask ws cut) (a + BitVec.ofNat 20 k) =
      mergeLanes (readWord m (a + BitVec.ofNat 20 k)) w lanes := by
  induction ws with
  | nil => exact fun _ _ here _ => nomatch here
  | cons v rest ih =>
    intro m a cut k wf short here before
    obtain ⟨cut, rfl⟩ : ∃ c, cut = c + 1 := ⟨cut - 1, by omega⟩
    rw [List.length_cons] at short
    rw [tornWords]
    cases k with
    | zero =>
      obtain rfl : v = w := Option.some.inj here
      rw [BitVec.add_zero,
        readWord_tornWords_of_ne fun i within => (add_one_add_ne a i (by omega)).symm, readWord_writeWord_self _ _ _ _ wf]
    | succ k =>
      have within : k < rest.length := Nat.lt_of_succ_lt_succ (List.getElem?_eq_some_iff.1 here).1
      rw [← add_one_add, ih (wf_writeWord m a lanes v wf) (by omega) here (by omega),
        readWord_writeWord_of_ne _ _ _ _ _ (add_one_add_ne a k (by omega))]

/-- The words after the cut are old. -/
theorem readWord_tornWords_after (ws : List Word) : ∀ {m : List Host.Cell} {a : WordAddr} {cut k : Nat},
    ws.length ≤ 1048576 → k < ws.length → cut < k →
    readWord (tornWords m a lanes mask ws cut) (a + BitVec.ofNat 20 k) = readWord m (a + BitVec.ofNat 20 k) := by
  induction ws with
  | nil => exact fun _ within _ => absurd within (Nat.not_lt_zero _)
  | cons v rest ih =>
    intro m a cut k short within after
    obtain ⟨k, rfl⟩ : ∃ j, k = j + 1 := ⟨k - 1, by omega⟩
    rw [List.length_cons] at short within
    rw [← add_one_add]
    cases cut with
    | zero => exact readWord_writeWord_of_ne _ _ _ _ _ (add_one_add_ne a k (by omega))
    | succ cut =>
      rw [tornWords, ih (by omega) (by omega) (by omega),
        readWord_writeWord_of_ne _ _ _ _ _ (add_one_add_ne a k (by omega))]

/-- The word at the cut is a mixture. -/
theorem readWord_tornWords_cut (ws : List Word) : ∀ {m : List Host.Cell} {a : WordAddr} {cut : Nat}, Memory.wf m →
    ws.length ≤ 1048576 → ws[cut]? = some w →
    readWord (tornWords m a lanes mask ws cut) (a + BitVec.ofNat 20 cut) =
      mixWords (readWord m (a + BitVec.ofNat 20 cut)) (mergeLanes (readWord m (a + BitVec.ofNat 20 cut)) w lanes) mask := by
  induction ws with
  | nil => exact fun _ _ here => nomatch here
  | cons v rest ih =>
    intro m a cut wf short here
    rw [List.length_cons] at short
    cases cut with
    | zero =>
      obtain rfl : v = w := Option.some.inj here
      rw [BitVec.add_zero]
      exact readWord_writeWord_self _ _ _ _ wf
    | succ cut =>
      have within : cut < rest.length := Nat.lt_of_succ_lt_succ (List.getElem?_eq_some_iff.1 here).1
      rw [tornWords, ← add_one_add, ih (wf_writeWord m a lanes v wf) (by omega) here,
        readWord_writeWord_of_ne _ _ _ _ _ (add_one_add_ne a cut (by omega))]

/-- Each bit of a mixture is the old one or the new. -/
theorem mixWords_bit (old new mask : Word) {k : Nat} (h : k < 16) :
    (mixWords old new mask).getLsbD k = old.getLsbD k ∨ (mixWords old new mask).getLsbD k = new.getLsbD k := by
  rw [mixWords, BitVec.getLsbD_or, BitVec.getLsbD_and, BitVec.getLsbD_and, BitVec.getLsbD_not, decide_eq_true h, Bool.true_and]
  cases mask.getLsbD k with
  | false => exact .inl (by simp)
  | true => exact .inr (by simp)

/-! ## The operation cut short by a reset (R132) -/

theorem cutOperation_read (reads : ∀ op, s.port.op = some op → op.writes = []) : s.cutOperation = s := by
  rw [State.cutOperation]
  split
  next op busy => exact if_pos (reads op busy)
  next => rfl

theorem cutOperation_mem (busy : s.port.op = some op) (writes : op.writes ≠ []) :
    s.cutOperation.mem = s.tornMemory op := by
  rw [State.cutOperation, busy]
  exact congrArg State.mem (if_neg writes)

theorem exec_rstnAssert (up : s.running = true) :
    exec .rstnAssert s = .next (({ s with lines.rstn := true } : State).beginReset .line) := by
  have off : ¬s.lines.rstn = true := by
    have up := up
    simp only [State.running, Bool.and_eq_true, Bool.not_eq_true'] at up
    exact Bool.eq_false_iff.1 up.2
  exact congrArg Host.Outcome.next ((if_neg off).trans (if_pos up))

/-- The rows that begin a reset leave the memory that the cut leaves. -/
theorem mem_of_reset {i : Instr}
    (row : i = .powerOn ∨ i = .powerLoss ∨ i = .rstnAssert ∧ s.running = true ∨
      i = .chipSelectRise ∧ s.running = true ∧ s.lines.csLow = true ∧ s.control.restartPending = true)
    (next : exec i s = .next t) : t.mem = s.cutOperation.mem := by
  have begins : ∀ l cause, (({ s with lines := l } : State).beginReset cause).mem = s.cutOperation.mem := fun l cause => by
    rw [State.beginReset, cutOperation_lines]
    rfl
  rcases row with rfl | rfl | ⟨rfl, up⟩ | ⟨rfl, up, low, restarts⟩
  · cases next
    exact begins _ _
  · cases next
    exact begins _ _
  · rw [exec_rstnAssert up] at next
    cases next
    exact begins _ _
  · have ends : exec .chipSelectRise s = .next (({ s with lines.csLow := false } : State).beginReset .command).endReset := by
      simp only [exec, execChipSelectRise, State.endFrame, low, up, restarts, Bool.true_eq_false, if_false, if_true]
    cases ends.symm.trans next
    exact (classify_mem _).trans (begins _ .command)

end Sys2Proof.Proofs

namespace Sys2Proof.Proofs
open Sys2Proof.Machine Sys2Proof.Laws

/-- Settles O31: the memory is as it was, or torn at one word. -/
theorem aResetTearsAtMostOneWord : Obligations.AResetTearsAtMostOneWord := by
  intro s t op i wf busy short row next
  rw [mem_of_reset row next]
  by_cases read : op.writes = []
  · have same : s.cutOperation = s := cutOperation_read fun x is => by cases busy.symm.trans is; exact read
    rw [same]
    exact ⟨fun _ _ => rfl, fun _ => rfl, fun writes => absurd read writes⟩
  rw [cutOperation_mem busy read]
  refine ⟨fun a outside => ?_, fun none => absurd none read, fun _ => ?_⟩
  · rcases tornMemory_cases s op with same | ⟨mask, cut, -, -, torn⟩
    · rw [same]
    · rw [torn]
      exact readByte_tornWords _ _ _ _ _ _ _ fun k within =>
        ⟨fun low => outside ⟨k, within, .inl low⟩, fun high => outside ⟨k, within, .inr high⟩⟩
  · rcases tornMemory_cases s op with same | ⟨mask, cut, within, -, torn⟩
    · rw [same]
      exact ⟨0, List.length_pos_of_ne_nil read, fun k w _ before => absurd before (Nat.not_lt_zero k), fun _ _ _ => rfl,
        fun _ _ _ _ => .inl rfl⟩
    · rw [torn]
      refine ⟨cut, within, fun k w here before => readWord_tornWords_before _ wf (by omega) here before,
        fun k inside after => readWord_tornWords_after _ (by omega) inside after, fun w here k bit => ?_⟩
      rw [readWord_tornWords_cut _ wf (by omega) here]
      exact mixWords_bit _ _ _ bit

/-- Settles O52: reset by reset; a torn configuration copy is one that `mayTear` allows. -/
theorem resetsBeginAndEnd : Obligations.ResetsBeginAndEnd := by
  intro s r is
  have begins : ∀ l c, ({ s with lines := l } : State).beginReset c = r l c := fun l c => by
    rw [is, State.beginReset, cutOperation_lines]
    obtain ⟨m, n, -, cut⟩ := cutOperation_cases s
    rw [cut]
    rfl
  refine ⟨congrArg Host.Outcome.next (begins _ _), congrArg Host.Outcome.next (begins _ _),
    fun up => (exec_rstnAssert up).trans (congrArg Host.Outcome.next (begins _ _)),
    fun reads => by rw [cutOperation_read reads]; exact ⟨rfl, rfl⟩, fun op c busy kind => ?_, fun down off => ?_,
    fun down => ⟨fun off => ?_, fun on => ?_⟩, fun rising on => ?_, fun on other => ?_, fun rising off => ?_,
    fun on ranged => ?_⟩
  · by_cases read : op.writes = []
    · exact .inl (congrArg State.mem (cutOperation_read fun x is => by cases busy.symm.trans is; exact read))
    rw [cutOperation_mem busy read]
    refine (tornMemory_cases s op).imp_right ?_
    rintro ⟨mask, cut, -, may, torn⟩
    rw [torn]
    rcases kind with kind | kind <;> · rw [State.mayTear, kind] at may; exact Option.isNone_iff_eq_none.1 may
  · exact congrArg Host.Outcome.next ((if_neg (Bool.eq_false_iff.1 off)).trans (if_neg (Bool.eq_false_iff.1 down)))
  · exact congrArg Host.Outcome.next ((if_neg (Bool.eq_false_iff.1 off)).trans (if_neg (Bool.eq_false_iff.1 down)))
  · exact congrArg Host.Outcome.next
      ((if_neg (by rw [on]; exact Bool.true_eq_false.mp)).trans (if_neg (Bool.eq_false_iff.1 down)))
  · exact congrArg Host.Outcome.next ((if_pos rising).trans (if_pos on))
  · exact congrArg Host.Outcome.next ((if_neg (by rw [on]; exact Bool.true_eq_false.mp)).trans (if_neg other))
  · exact congrArg Host.Outcome.next ((if_pos rising).trans (if_neg (Bool.eq_false_iff.1 off)))
  · exact congrArg Host.Outcome.next ((if_neg (by rw [on]; exact Bool.true_eq_false.mp)).trans (if_pos ranged))

end Sys2Proof.Proofs
end

section
-- One declaration at a time: each thread that waits for another reserves memory of the check.
set_option Elab.async false
/-! The power warning: the hold set and cleared, and the arbiter's run as it clears (sections 4.6, 7.7 and 8.7). -/

namespace Sys2Proof.Proofs
open Sys2Proof.Machine Sys2Proof.Laws

variable {s w : State} {k : OpKind} {i : Fin 8}

/-! ## The hold set (R76, R119, R146) -/

/-- The record or the anchor write in hand that keeps a run from its pause (R76). -/
def runBusy (s : State) : Prop :=
  ∃ op, s.port.op = some op ∧
    (s.rollback.phase = .read ∧ op.kind = .rollbackRead ∨ s.rollback.phase = .close ∧ ∃ c, op.kind = .abortAnchor c)

theorem performing_iff {p : OpKind → Bool} : s.performing p = true ↔ ∃ op, s.port.op = some op ∧ p op.kind = true := by
  unfold State.performing
  cases s.port.op <;> simp

theorem isRollbackRead_iff : k.isRollbackRead = true ↔ k = .rollbackRead := by
  cases k <;> simp [OpKind.isRollbackRead]

theorem isAbortAnchor_iff : k.isAbortAnchor = true ↔ ∃ c, k = .abortAnchor c := by
  cases k <;> simp [OpKind.isAbortAnchor]

theorem pauseRun_pauses (phase : s.rollback.phase = .read ∨ s.rollback.phase = .close) (still : ¬runBusy s) :
    s.pauseRun.rollback.phase = .paused := by
  rcases phase with phase | phase
  · have quiet : ¬s.performing OpKind.isRollbackRead = true := by
      rw [performing_iff]
      rintro ⟨op, busy, kind⟩
      exact still ⟨op, busy, .inl ⟨phase, isRollbackRead_iff.1 kind⟩⟩
    rw [State.pauseRun, phase]
    exact congrArg (fun u : State => u.rollback.phase) (if_neg quiet)
  · have quiet : ¬s.performing OpKind.isAbortAnchor = true := by
      rw [performing_iff]
      rintro ⟨op, busy, kind⟩
      exact still ⟨op, busy, .inr ⟨phase, isAbortAnchor_iff.1 kind⟩⟩
    rw [State.pauseRun, phase]
    exact congrArg (fun u : State => u.rollback.phase) (if_neg quiet)

theorem pauseRun_still (still : runBusy s ∨ s.rollback.phase ≠ .read ∧ s.rollback.phase ≠ .close) : s.pauseRun = s := by
  unfold State.pauseRun
  split
  next phase =>
    refine if_pos (performing_iff.2 ?_)
    rcases still with ⟨op, busy, ⟨-, kind⟩ | ⟨other, -⟩⟩ | ⟨other, -⟩
    · exact ⟨op, busy, isRollbackRead_iff.2 kind⟩
    · rw [phase] at other; cases other
    · exact absurd phase other
  next phase =>
    refine if_pos (performing_iff.2 ?_)
    rcases still with ⟨op, busy, ⟨other, -⟩ | ⟨-, kind⟩⟩ | ⟨-, other⟩
    · rw [phase] at other; cases other
    · exact ⟨op, busy, isAbortAnchor_iff.2 kind⟩
    · exact absurd phase other
  all_goals rfl

theorem holdGrantWait_eq :
    s.holdGrantWait = { s with host.phase := if s.host.phase = .grantWait then .held .power else s.host.phase } := by
  unfold State.holdGrantWait
  split <;> rfl

/-- The hold flag set and HOLD_ENTERED raised, before the run pauses (R146). -/
def holdSet (s : State) : State := ({ s with lines.pfw := true, control.hold := true } : State).raise .holdEntered

theorem exec_pfwAssert (up : s.running = true) (off : s.lines.pfw = false) :
    exec .pfwAssert s =
      .next
        { s with
          lines.pfw := true
          control.hold := true
          events.flags := s.events.flags ||| EventFlag.holdEntered.mask
          rollback.phase := (holdSet s).pauseRun.rollback.phase
          host.phase := if s.host.phase = .grantWait then .held .power else s.host.phase } := by
  have entered : exec .pfwAssert s = .next (holdSet s).pauseRun.holdGrantWait :=
    congrArg Host.Outcome.next ((if_neg (Bool.eq_false_iff.1 off)).trans (if_pos up))
  rw [entered, holdGrantWait_eq]
  conv_lhs => rw [pauseRun_changes]
  rfl

/-! ## The hold cleared (R76, R146, R148) -/

theorem resumeRun_paused (paused : s.rollback.phase = .paused) :
    s.resumeRun = { s with rollback.phase := if s.rollback.remaining = 0 then .close else .read } := if_pos paused

/-- A run resumed asks its next operation, one of group MT (R76, R124). -/
theorem resumeRun_asks (paused : s.rollback.phase = .paused) :
    ∃ k, s.resumeRun.journalWaiting = some k ∧ k.group = .mt := by
  rw [resumeRun_paused paused]
  by_cases done : s.rollback.remaining = 0
  · exact ⟨_, journalWaiting_close (if_pos done), rfl⟩
  · exact ⟨_, journalWaiting_read (if_neg done), rfl⟩

/-- On a free port a run resumed goes before the arming reads and, in its turn, before the host. -/
theorem resumeRun_nextGrant (free : s.control.hold = false) (paused : s.rollback.phase = .paused) (none : s.wpWaiting = .none)
    (spare : s.regions.saving = false) (turn : s.host.phase ≠ .grantWait ∨ s.port.alternation = .host) :
    ∃ k, s.resumeRun.nextGrant = some k ∧ k.group = .mt := by
  obtain ⟨k, asks, mt⟩ := resumeRun_asks paused
  rw [resumeRun_paused paused] at asks ⊢
  exact ⟨k, nextGrant_device free turn (deviceWaiting_journal none spare asks), mt⟩

theorem clearGrant_none (still : s.port.op ≠ none ∨ s.resumeRun.nextGrant = s.nextGrant ∨ s.nextGrant = none) :
    s.clearGrant = s := by
  have choice : s.clearChoice = none := by
    unfold State.clearChoice
    split
    next asked =>
      rcases still with busy | same | none
      · exact absurd (Option.isNone_iff_eq_none.1 asked.1) busy
      · exact absurd same asked.2
      · exact none
    next => rfl
  rw [State.clearGrant, choice]

theorem clearGrant_some (free : s.port.op = none) (next : s.nextGrant = some k) (other : s.resumeRun.nextGrant ≠ some k) :
    s.clearGrant =
      if Config.arbiterFirst s.freeCount then ({ s with freeCount := s.freeCount + 1 } : State).grant k
      else { s with freeCount := s.freeCount + 1 } := by
  have choice : s.clearChoice = some k := by
    rw [State.clearChoice, if_pos ⟨Option.isNone_iff_eq_none.2 free, next ▸ other⟩, next]
  rw [State.clearGrant, choice]

/-- What the device side asks whether a run is resumed or not is granted alike. -/
theorem resumeRun_nextGrant_eq (clear : s.control.hold = false) (one : s.deviceWaiting = some k)
    (other : s.resumeRun.deviceWaiting = some k) : s.resumeRun.nextGrant = s.nextGrant := by
  rw [resumeRun_changes] at other ⊢
  by_cases turn : s.host.phase = .grantWait ∧ s.port.alternation = .device
  · rw [nextGrant_host clear turn.1 (.inl turn.2)]
    exact nextGrant_host clear turn.1 (.inl turn.2)
  · have device : s.host.phase ≠ .grantWait ∨ s.port.alternation = .host := by
      refine (not_and_or.1 turn).imp_right fun other => ?_
      cases side : s.port.alternation
      · rfl
      · exact absurd side other
    rw [nextGrant_device clear device one]
    exact nextGrant_device clear device other

/-- Where WP, a SAVE_CONFIG or the host's turn comes first, or nothing waits, it does not matter that the run resumes. -/
theorem clearGrant_still (clear : s.control.hold = false) (idle : s.journalWaiting = none)
    (still : s.port.op ≠ none ∨ s.wpWaiting ≠ none ∨ s.regions.saving = true ∨
      s.host.phase = .grantWait ∧ s.port.alternation = .device ∨
      s.host.phase ≠ .grantWait ∧ ∀ i : Fin 8, s.monitors[i].state ≠ .arming) : s.clearGrant = s := by
  have resumed := resumeRun_changes s
  refine clearGrant_none (or_iff_not_imp_left.2 fun free => ?_)
  by_cases wp : s.wpWaiting = none
  · by_cases saving : s.regions.saving = true
    · refine .inl (resumeRun_nextGrant_eq clear (deviceWaiting_save wp saving) ?_)
      rw [resumed]
      exact deviceWaiting_save (by exact wp) (by exact saving)
    rcases ((still.resolve_left free).resolve_left (not_not.2 wp)).resolve_left saving with ⟨waits, turn⟩ | ⟨phase, none⟩
    · refine .inl ?_
      rw [nextGrant_host clear waits (.inl turn), resumed]
      exact nextGrant_host clear waits (.inl turn)
    · refine .inr (nextGrant_idle clear phase ?_)
      rw [deviceWaiting_ma wp (Bool.eq_false_iff.2 saving) idle, maWaiting_none none]
  · obtain ⟨k, asks⟩ := Option.ne_none_iff_exists'.1 wp
    refine .inl (resumeRun_nextGrant_eq clear (deviceWaiting_wp asks) (deviceWaiting_wp ?_))
    rw [resumed]
    exact asks

end Sys2Proof.Proofs

namespace Sys2Proof.Proofs
open Sys2Proof.Machine Sys2Proof.Laws

/-- Settles O51: the hold set pauses the run; the hold cleared resumes it, after the arbiter's own grant where its choice
depends on it. -/
theorem theHoldFollowsThePowerWarning : Obligations.TheHoldFollowsThePowerWarning := by
  refine ⟨fun s busy up off is => ?asserted, fun s w next up on cleared resumed => ?cleared⟩
  case asserted =>
    exact ⟨_, exec_pfwAssert up off, fun phase still => pauseRun_pauses (s := holdSet s) phase (mt is.2 still),
      fun still => by rw [pauseRun_still (s := holdSet s) (still.imp_left is.1)]; rfl⟩
  case cleared =>
    have after : holdCleared s = w := by
      rw [cleared]
      exact reclassify_eq .power
    have left : exec .pfwDeassert s = .next w.clearGrant.resumeRun := by
      rw [← after, ← leaveHold_eq]
      exact congrArg Host.Outcome.next ((if_neg (Bool.true_eq_false.mp <| on.symm.trans ·)).trans (if_pos up))
    obtain ⟨run, port, cells, regions, count, clear⟩ : w.rollback = s.rollback ∧ w.port = s.port ∧
        w.monitors = s.monitors ∧ w.regions = s.regions ∧ w.freeCount = s.freeCount ∧ w.control.hold = false := by
      rw [cleared]
      unfold State.classifiedIf
      split
      · rw [classify_rollback, classify_port, classify_monitors, classify_regions, classify_freeCount, classify_control]
        exact ⟨rfl, rfl, rfl, rfl, rfl, rfl⟩
      · exact ⟨rfl, rfl, rfl, rfl, rfl, rfl⟩
    rw [left, ← run, ← port, ← cells, ← regions, ← count]
    rw [← run] at resumed
    clear cleared after left
    subst resumed
    refine ⟨fun running => ?running, fun paused idle => ⟨fun still => ?still, fun free wp spare =>
      ⟨fun i turn arming lowest => ?arming, fun r none waits turn shown => ?host⟩⟩⟩
    case running =>
      rcases clearGrant_cases w with same | ⟨-, paused, -⟩
      · rw [same, resumeRun_running running]
      · exact absurd paused running
    case still => rw [clearGrant_still clear idle still, resumeRun_paused paused]
    case arming =>
      have asks : w.deviceWaiting = some (.arming i true) :=
        (deviceWaiting_ma wp spare idle).trans (maWaiting_lowest arming lowest)
      obtain ⟨k, other, mt⟩ := resumeRun_nextGrant clear paused wp spare turn
      have apart : w.resumeRun.nextGrant ≠ some (.arming i true) := by
        rw [other]
        rintro ⟨⟩
        cases mt
      rw [clearGrant_some free (nextGrant_device clear turn asks) apart]
      split
      · exact congrArg Host.Outcome.next (resumeRun_paused (by exact paused))
      · exact congrArg Host.Outcome.next (resumeRun_paused (by exact paused))
    case host =>
      have asks : w.deviceWaiting = .none := (deviceWaiting_ma wp spare idle).trans (maWaiting_none none)
      obtain ⟨k, other, mt⟩ := resumeRun_nextGrant clear paused wp spare (.inr turn)
      have apart : w.resumeRun.nextGrant ≠ some .hostRead := by
        rw [other]
        rintro ⟨⟩
        cases mt
      have start : (w.lines.presented.map (fun r => r.addr)).getD 0 = r.addr := by rw [shown]; rfl
      rw [clearGrant_some free (nextGrant_host clear waits (.inr asks)) apart, ← start]
      split
      · exact congrArg Host.Outcome.next (resumeRun_paused (by exact paused))
      · exact congrArg Host.Outcome.next (resumeRun_paused (by exact paused))

end Sys2Proof.Proofs
end

section
-- One declaration at a time: each thread that waits for another reserves memory of the check.
set_option Elab.async false
/-! The stored records: a journal record, an anchor and a configuration are read back as written (sections 3.2, 3.4, 5.5 and
12.1). -/

namespace Sys2Proof.Proofs
open Sys2Proof.Machine Sys2Proof.Laws

variable {m : List Host.Cell} {ws : List Word}

/-! ## The fields of a record -/

theorem serialOf_words32 (x : Serial) : serialOf (x.extractLsb' 16 16) (x.extractLsb' 0 16) = x :=
  (BitVec.extractLsb'_append_extractLsb'_eq_extractLsb' rfl).trans BitVec.extractLsb'_eq_self

theorem wordOf_toNat {n : Nat} (h : n < 65536) : (wordOf n).toNat = n := by
  rw [wordOf, BitVec.toNat_ofNat]
  exact Nat.mod_eq_of_lt h

/-- A record with its check word has the sum its judgement asks for. -/
theorem withCheck_sum (target : Word) (body : List Word) : (withCheck target body).sum = target := by
  rw [withCheck, List.sum_append, List.sum_singleton, add_sub_cancel]

theorem readWords_back {n : Nat} (wf : Memory.wf m) (start : WordAddr) (length : ws.length = n) (short : n ≤ 1048576) :
    readWords (writeWords m start .both ws) start n = ws := by
  subst length
  exact readWords_writeWords ws m start wf short

/-! ## The journal record and the anchor -/

theorem judgeRecord_recordWords (spill : Bool) (serial : Serial) {sequence block : Nat} {preimage : List Word} {live : Location}
    (length : preimage.length = 16) (order : sequence < 65536) (high : 9 ≤ block) (fits : block < 65536)
    (outside : live.covers block = false) :
    judgeRecord serial sequence live (recordWords spill serial sequence block preimage) = some (block, preimage) := by
  have at4 : (wordAt (recordWords spill serial sequence block preimage) 4).toNat = block := wordOf_toNat fits
  have kind : wordAt (recordWords spill serial sequence block preimage) 0 = 1 ∨
      wordAt (recordWords spill serial sequence block preimage) 0 = 2 := by
    cases spill
    · exact .inl rfl
    · exact .inr rfl
  have kept : ((recordWords spill serial sequence block preimage).drop 5).take Config.blockWords = preimage :=
    List.take_left' length
  rw [judgeRecord, if_pos, at4, kept]
  refine ⟨withCheck_sum _ _, kind, serialOf_words32 serial, wordOf_toNat order, ?_, ?_⟩
  · rw [at4]; exact high
  · rw [at4]; exact outside

theorem judgeAnchor_anchorWords {next : Serial} {tail : Nat} {l : Location} (some : next ≠ 0) (within : tail < l.slots.toNat) :
    judgeAnchor l (anchorWords next tail l) = Option.some { next := next, tail := tail } := by
  have serial : serialOf (wordAt (anchorWords next tail l) 0) (wordAt (anchorWords next tail l) 1) = next :=
    serialOf_words32 next
  have tailKept : (wordAt (anchorWords next tail l) 2).toNat = tail := wordOf_toNat (within.trans l.slots.isLt)
  rw [judgeAnchor, if_pos, serial, tailKept]
  refine ⟨withCheck_sum _ _, rfl, rfl, ?_, ?_⟩
  · rw [tailKept]; exact within
  · rw [serial]; exact some

/-- A zero anchor fails its check (R49, R58). -/
theorem judgeAnchor_zero (l : Location) : judgeAnchor l (List.replicate 8 0) = none :=
  if_neg fun valid => absurd valid.1 (by decide)

/-! ## The configuration copy -/

/-- The words of the descriptors, three to each. -/
theorem descriptor_words_getD (ds : List Descriptor) (tail : List Word) : ∀ {i : Nat} {d : Descriptor}, ds[i]? = some d →
    ∀ j < 3, (ds.flatMap Descriptor.words ++ tail).getD (3 * i + j) 0 = d.words.getD j 0 := by
  induction ds with
  | nil => exact fun here => nomatch here
  | cons e rest ih =>
    intro i d here j low
    cases i with
    | zero =>
      obtain rfl : e = d := Option.some.inj here
      match j, low with
      | 0, _ | 1, _ | 2, _ => rfl
    | succ i =>
      rw [show 3 * (i + 1) + j = 3 * i + j + 1 + 1 + 1 by omega]
      exact ih here j low

theorem descriptorOf_words (d : Descriptor) : descriptorOf d.first d.last d.attributes = some d := by
  obtain ⟨valid, first, last, cls, width, policy⟩ := d
  have code : ∀ a : Word,
      a = (boolCode valid).setWidth 16 ||| (cls.code.setWidth 16 <<< 2) ||| (width.code.setWidth 16 <<< 4) |||
        (policy.code.setWidth 16 <<< 6) →
      validOfCode (a.extractLsb' 0 2).toNat = some valid ∧ RegionClass.ofCode (a.extractLsb' 2 2).toNat = some cls ∧
        Width.ofCode (a.extractLsb' 4 2).toNat = some width ∧ OutsidePolicy.ofCode (a.extractLsb' 6 2).toNat = some policy := by
    rintro a rfl
    cases valid <;> cases cls <;> cases width <;> cases policy <;> exact ⟨rfl, rfl, rfl, rfl⟩
  obtain ⟨isValid, isClass, isWidth, isPolicy⟩ := code _ rfl
  simp only [descriptorOf, Descriptor.attributes, isValid, isClass, isWidth, isPolicy]

/-- The header of a configuration copy: its first eight words (chapter 12.1). -/
def configHeader (c : StoredConfig) : List Word :=
  [Config.configMark] ++ words32 c.generation ++
    [c.location.base, c.location.slots, c.table.defaults.cls.code.setWidth 16, c.table.defaults.ageLimit,
      c.table.defaults.agePolicy.code.setWidth 16]

theorem configWords_descriptor (c : StoredConfig) {i : Nat} {d : Descriptor} (here : c.table.descs.toList[i]? = some d)
    {j : Nat} (low : j < 3) : wordAt (configWords c) (8 + 3 * i + j) = d.words.getD j 0 := by
  have split : configWords c =
      configHeader c ++ (c.table.descs.toList.flatMap Descriptor.words ++
        ([Config.configSum - (configHeader c ++ c.table.descs.toList.flatMap Descriptor.words).sum] ++ List.replicate 7 0)) := by
    simp only [configWords, configHeader, withCheck, List.append_assoc]
  rw [wordAt, split, ← descriptor_words_getD _ _ here j low, List.getD_append_right _ _ _ _ (by simp [configHeader, words32]; omega)]
  congr 1
  simp [configHeader, words32]
  omega

theorem descriptorAt_configWords (c : StoredConfig) (i : Fin 16) :
    descriptorAt (configWords c) i = some c.table.descs[i] := by
  have here : c.table.descs.toList[i.val]? = some c.table.descs[i] := by simp
  have word := fun j low => configWords_descriptor c here (j := j) low
  rw [descriptorAt, show 9 + 3 * i.val = 8 + 3 * i.val + 1 by omega, show 10 + 3 * i.val = 8 + 3 * i.val + 2 by omega,
    show 8 + 3 * i.val = 8 + 3 * i.val + 0 from rfl, word 0 (by decide), word 1 (by decide), word 2 (by decide)]
  exact descriptorOf_words _

theorem descriptorsAt_configWords (c : StoredConfig) : descriptorsAt (configWords c) = some c.table.descs := by
  have all : (List.finRange 16).all (fun i => (descriptorAt (configWords c) i).isSome) = true :=
    List.all_eq_true.2 fun i _ => by rw [descriptorAt_configWords]; rfl
  rw [descriptorsAt, if_pos all]
  congr 1
  ext i inside : 1
  rw [Vector.getElem_ofFn, descriptorAt_configWords c ⟨i, inside⟩]
  rfl

theorem locationAt_configWords {c : StoredConfig} (placed : c.location.validForUse = true ∨ c.location = {}) :
    locationAt (configWords c) = c.location := by
  have kept : locationAt (configWords c) = if c.location.slots = 0 then {} else c.location := rfl
  rw [kept]
  rcases placed with valid | none
  · refine if_neg fun zero => ?_
    obtain ⟨-, some, -⟩ := validForUse_iff.1 valid
    rw [zero] at some
    exact absurd some (by decide)
  · rw [none]
    rfl

theorem configWords_sum (c : StoredConfig) : ((configWords c).take 57).sum = Config.configSum := by
  rw [configWords, List.take_left' (by simp [withCheck_length, words32, descriptorWords_length, -List.length_flatMap])]
  exact withCheck_sum _ _

/-- A configuration is judged valid as it is written (R90, R91, R179). -/
theorem judgeConfig_configWords {c : StoredConfig} (some : c.generation ≠ 0) (lawful : c.table.lawful c.location = true)
    (placed : c.location.validForUse = true ∨ c.location = {}) : judgeConfig (configWords c) = Option.some c := by
  have cls : DefaultClass.ofCode (wordAt (configWords c) 5).toNat = Option.some c.table.defaults.cls := by
    show DefaultClass.ofCode (c.table.defaults.cls.code.setWidth 16).toNat = _
    cases c.table.defaults.cls <;> rfl
  have policy : AgePolicy.ofCode (wordAt (configWords c) 7).toNat = Option.some c.table.defaults.agePolicy := by
    show AgePolicy.ofCode (c.table.defaults.agePolicy.code.setWidth 16).toNat = _
    cases c.table.defaults.agePolicy <;> rfl
  have serial : serialOf (wordAt (configWords c) 1) (wordAt (configWords c) 2) = c.generation := serialOf_words32 _
  rw [judgeConfig, descriptorsAt_configWords, cls, policy]
  dsimp only
  rw [locationAt_configWords placed, serial]
  exact if_pos ⟨rfl, configWords_sum c, placed.symm.imp (fun none => show c.location.slots = 0 by rw [none]) id, lawful, some⟩

end Sys2Proof.Proofs

namespace Sys2Proof.Proofs
open Sys2Proof.Machine Sys2Proof.Laws

/-- Settles O39: the words read back are those written, and those pass their judgement. -/
theorem recordsAndAnchorsAreReadBack : Obligations.RecordsAndAnchorsAreReadBack := by
  refine ⟨fun m start spill serial sequence block preimage live wf length order high fits outside => ?_,
    fun m start next tail l wf some within => ?_, fun m start l wf => ?_⟩
  · rw [readWords_back wf start (recordWords_length spill serial sequence block length) (by decide)]
    exact judgeRecord_recordWords spill serial length order high fits outside
  · rw [readWords_back wf start (anchorWords_length next tail l) (by decide)]
    exact judgeAnchor_anchorWords some within
  · rw [readWords_back wf start List.length_replicate (by decide)]
    exact judgeAnchor_zero l

/-- Settles O40: the words read back are those written, and those pass R91. -/
theorem configurationsAreReadBackAsWritten : Obligations.ConfigurationsAreReadBackAsWritten := by
  intro m start c wf some lawful placed
  rw [readWords_back wf start (configWords_length c) (by decide)]
  exact judgeConfig_configWords some lawful placed

end Sys2Proof.Proofs
end
